-- ==== Sys2Proof/Word.lean ====
section
/-! DEFINITION. Bytes and words of the control link, and the part's numbered things (stands, points, spans, channels,
E-stop inputs, tags, trip sources: 00_scope.md, "Numbering") with tables of one entry for each of them. -/
namespace Sys2Proof

/-- One byte of the control link (R144). -/
abbrev Byte := BitVec 8
/-- A two-byte field, most significant byte first (R167). -/
abbrev Word := BitVec 16
/-- A four-byte field, most significant byte first (R167). -/
abbrev Long := BitVec 32

/-- One of the six rolling stands, numbered 1 to 6 in the direction of rolling. -/
inductive Stand where
  /-- Stand 1. -/
  | s1
  /-- Stand 2. -/
  | s2
  /-- Stand 3. -/
  | s3
  /-- Stand 4. -/
  | s4
  /-- Stand 5. -/
  | s5
  /-- Stand 6. -/
  | s6
deriving DecidableEq, Repr

namespace Stand
/-- The stand's number, 1 to 6. -/
def num : Stand → Nat
  | .s1 => 1
  | .s2 => 2
  | .s3 => 3
  | .s4 => 4
  | .s5 => 5
  | .s6 => 6
/-- The stands in number order. -/
def all : List Stand := [.s1, .s2, .s3, .s4, .s5, .s6]
/-- The stand with a given number; none outside 1 to 6. -/
def ofNat? : Nat → Option Stand
  | 1 => some .s1
  | 2 => some .s2
  | 3 => some .s3
  | 4 => some .s4
  | 5 => some .s5
  | 6 => some .s6
  | _ => none
/-- The next stand downstream. -/
def next? : Stand → Option Stand
  | .s1 => some .s2
  | .s2 => some .s3
  | .s3 => some .s4
  | .s4 => some .s5
  | .s5 => some .s6
  | .s6 => none
/-- The stand before, upstream. -/
def prev? : Stand → Option Stand
  | .s1 => none
  | .s2 => some .s1
  | .s3 => some .s2
  | .s4 => some .s3
  | .s5 => some .s4
  | .s6 => some .s5
end Stand

/-- A table with one entry for each stand. -/
structure PerStand (α : Type) where
  s1 : α
  s2 : α
  s3 : α
  s4 : α
  s5 : α
  s6 : α
deriving DecidableEq, Repr

namespace PerStand
variable {α : Type}
/-- The entry of one Stand. -/
def get (t : PerStand α) : Stand → α
  | .s1 => t.s1
  | .s2 => t.s2
  | .s3 => t.s3
  | .s4 => t.s4
  | .s5 => t.s5
  | .s6 => t.s6
/-- The table with one entry replaced. -/
def set (t : PerStand α) : Stand → α → PerStand α
  | .s1, x => { t with s1 := x }
  | .s2, x => { t with s2 := x }
  | .s3, x => { t with s3 := x }
  | .s4, x => { t with s4 := x }
  | .s5, x => { t with s5 := x }
  | .s6, x => { t with s6 := x }
/-- The table with the same entry everywhere. -/
def fill (x : α) : PerStand α := ⟨x, x, x, x, x, x⟩
/-- A function of the index, written out as a table. -/
def ofFn (f : Stand → α) : PerStand α := ⟨f .s1, f .s2, f .s3, f .s4, f .s5, f .s6⟩
/-- The entries in number order. -/
def toList (t : PerStand α) : List α := [t.s1, t.s2, t.s3, t.s4, t.s5, t.s6]
end PerStand

/-- A span of the mill: span 0 lies between the entry gauge and stand 1, span k after stand k. A length counter has the
number of the span it feeds (R20). -/
inductive Span where
  /-- Span 0, driven by the entry pinch roll. -/
  | entry
  /-- Span k, driven by stand k. -/
  | after (k : Stand)
deriving DecidableEq, Repr

/-- A point of the mill: 0 is the entry gauge, 1 to 6 the stands, 7 the exit gauge. -/
inductive Point where
  /-- Point 0, the entry gauge. -/
  | entry
  /-- Points 1 to 6, the stands. -/
  | stand (k : Stand)
  /-- Point 7, the exit gauge. -/
  | exit
deriving DecidableEq, Repr

/-- A measurement channel (R1): 0 to 5 force, 6 to 11 position, 12 entry gauge, 13 exit gauge. -/
inductive Channel where
  /-- Channel k-1, the roll force of stand k. -/
  | force (k : Stand)
  /-- Channel k+5, the gap position of stand k. -/
  | position (k : Stand)
  /-- Channel 12, the entry thickness. -/
  | entry
  /-- Channel 13, the exit thickness. -/
  | exit
deriving DecidableEq, Repr

/-- An E-stop input, A to D (R134). -/
inductive EStop where
  /-- Input A. -/
  | a
  /-- Input B. -/
  | b
  /-- Input C. -/
  | c
  /-- Input D. -/
  | d
deriving DecidableEq, Repr
/-- A table with one entry for each E-stop input. -/
structure PerEStop (α : Type) where
  a : α
  b : α
  c : α
  d : α
deriving DecidableEq, Repr

namespace PerEStop
variable {α : Type}
/-- The entry of one EStop. -/
def get (t : PerEStop α) : EStop → α
  | .a => t.a
  | .b => t.b
  | .c => t.c
  | .d => t.d
/-- The table with one entry replaced. -/
def set (t : PerEStop α) : EStop → α → PerEStop α
  | .a, x => { t with a := x }
  | .b, x => { t with b := x }
  | .c, x => { t with c := x }
  | .d, x => { t with d := x }
/-- The table with the same entry everywhere. -/
def fill (x : α) : PerEStop α := ⟨x, x, x, x⟩
/-- A function of the index, written out as a table. -/
def ofFn (f : EStop → α) : PerEStop α := ⟨f .a, f .b, f .c, f .d⟩
/-- The entries in number order. -/
def toList (t : PerEStop α) : List α := [t.a, t.b, t.c, t.d]
end PerEStop

/-- A request's tag, 0 to 7, and with it a host move slot (R88). -/
inductive Tag where
  /-- Tag 0. -/
  | t0
  /-- Tag 1. -/
  | t1
  /-- Tag 2. -/
  | t2
  /-- Tag 3. -/
  | t3
  /-- Tag 4. -/
  | t4
  /-- Tag 5. -/
  | t5
  /-- Tag 6. -/
  | t6
  /-- Tag 7. -/
  | t7
deriving DecidableEq, Repr

namespace Tag
/-- The tag's number, 0 to 7. -/
def num : Tag → Nat
  | .t0 => 0
  | .t1 => 1
  | .t2 => 2
  | .t3 => 3
  | .t4 => 4
  | .t5 => 5
  | .t6 => 6
  | .t7 => 7
/-- The tag with a given number; none above 7. -/
def ofNat? : Nat → Option Tag
  | 0 => some .t0
  | 1 => some .t1
  | 2 => some .t2
  | 3 => some .t3
  | 4 => some .t4
  | 5 => some .t5
  | 6 => some .t6
  | 7 => some .t7
  | _ => none
/-- The tags in number order. -/
def all : List Tag := [.t0, .t1, .t2, .t3, .t4, .t5, .t6, .t7]
end Tag

/-- The host move slot table's shape: one entry for each tag. -/
structure PerTag (α : Type) where
  t0 : α
  t1 : α
  t2 : α
  t3 : α
  t4 : α
  t5 : α
  t6 : α
  t7 : α
deriving DecidableEq, Repr

namespace PerTag
variable {α : Type}
/-- The entry of one Tag. -/
def get (t : PerTag α) : Tag → α
  | .t0 => t.t0
  | .t1 => t.t1
  | .t2 => t.t2
  | .t3 => t.t3
  | .t4 => t.t4
  | .t5 => t.t5
  | .t6 => t.t6
  | .t7 => t.t7
/-- The table with one entry replaced. -/
def set (t : PerTag α) : Tag → α → PerTag α
  | .t0, x => { t with t0 := x }
  | .t1, x => { t with t1 := x }
  | .t2, x => { t with t2 := x }
  | .t3, x => { t with t3 := x }
  | .t4, x => { t with t4 := x }
  | .t5, x => { t with t5 := x }
  | .t6, x => { t with t6 := x }
  | .t7, x => { t with t7 := x }
/-- The table with the same entry everywhere. -/
def fill (x : α) : PerTag α := ⟨x, x, x, x, x, x, x, x⟩
/-- A function of the index, written out as a table. -/
def ofFn (f : Tag → α) : PerTag α := ⟨f .t0, f .t1, f .t2, f .t3, f .t4, f .t5, f .t6, f .t7⟩
/-- The entries in number order. -/
def toList (t : PerTag α) : List α := [t.t0, t.t1, t.t2, t.t3, t.t4, t.t5, t.t6, t.t7]
end PerTag

/-- A trip source (R109). -/
inductive Source where
  /-- Source k-1, OVERLOAD_k. -/
  | overload (k : Stand)
  /-- Source k+5, POSITION_k. -/
  | position (k : Stand)
  /-- Source 12. -/
  | stripLost
  /-- Source 13. -/
  | exitGauge
  /-- Source 14. -/
  | entryGauge
  /-- Source 15. -/
  | channelFault
  /-- Sources 16 to 19, ESTOP_A to ESTOP_D. -/
  | estop (e : EStop)
  /-- Source 20. -/
  | linkSilent
  /-- Source 21. -/
  | commanded
  /-- Source 22. -/
  | monitorLimit
  /-- Source 23. -/
  | poolFull
deriving DecidableEq, Repr

/-- A table with one entry for each span or length counter. -/
structure PerSpan (α : Type) where
  entry : α
  after : PerStand α
deriving DecidableEq, Repr

/-- A table with one entry for each point. -/
structure PerPoint (α : Type) where
  entry : α
  stand : PerStand α
  exit : α
deriving DecidableEq, Repr

/-- A table with one entry for each channel. -/
structure PerChannel (α : Type) where
  force : PerStand α
  position : PerStand α
  entry : α
  exit : α
deriving DecidableEq, Repr

/-- A table with one entry for each trip source. -/
structure PerSource (α : Type) where
  overload : PerStand α
  position : PerStand α
  stripLost : α
  exitGauge : α
  entryGauge : α
  channelFault : α
  estop : PerEStop α
  linkSilent : α
  commanded : α
  monitorLimit : α
  poolFull : α
deriving DecidableEq, Repr

namespace PerSpan
variable {α : Type}
/-- The entry of one span. -/
def get (t : PerSpan α) : Span → α
  | .entry => t.entry
  | .after k => t.after.get k
/-- The table with one entry replaced. -/
def set (t : PerSpan α) : Span → α → PerSpan α
  | .entry, x => { t with entry := x }
  | .after k, x => { t with after := t.after.set k x }
/-- The table with the same entry everywhere. -/
def fill (x : α) : PerSpan α :=
  ⟨x, .fill x⟩
/-- A function of the index, written out as a table. -/
def ofFn (f : Span → α) : PerSpan α :=
  ⟨f .entry, .ofFn fun k => f (.after k)⟩
/-- The entries in number order. -/
def toList (t : PerSpan α) : List α :=
  [t.entry] ++ t.after.toList
end PerSpan

namespace PerPoint
variable {α : Type}
/-- The entry of one point. -/
def get (t : PerPoint α) : Point → α
  | .entry => t.entry
  | .stand k => t.stand.get k
  | .exit => t.exit
/-- The table with one entry replaced. -/
def set (t : PerPoint α) : Point → α → PerPoint α
  | .entry, x => { t with entry := x }
  | .stand k, x => { t with stand := t.stand.set k x }
  | .exit, x => { t with exit := x }
/-- The table with the same entry everywhere. -/
def fill (x : α) : PerPoint α :=
  ⟨x, .fill x, x⟩
/-- A function of the index, written out as a table. -/
def ofFn (f : Point → α) : PerPoint α :=
  ⟨f .entry, .ofFn fun k => f (.stand k), f .exit⟩
/-- The entries in number order. -/
def toList (t : PerPoint α) : List α :=
  [t.entry] ++ t.stand.toList ++ [t.exit]
end PerPoint

namespace PerChannel
variable {α : Type}
/-- The entry of one channel. -/
def get (t : PerChannel α) : Channel → α
  | .force k => t.force.get k
  | .position k => t.position.get k
  | .entry => t.entry
  | .exit => t.exit
/-- The table with one entry replaced. -/
def set (t : PerChannel α) : Channel → α → PerChannel α
  | .force k, x => { t with force := t.force.set k x }
  | .position k, x => { t with position := t.position.set k x }
  | .entry, x => { t with entry := x }
  | .exit, x => { t with exit := x }
/-- The table with the same entry everywhere. -/
def fill (x : α) : PerChannel α :=
  ⟨.fill x, .fill x, x, x⟩
/-- A function of the index, written out as a table. -/
def ofFn (f : Channel → α) : PerChannel α :=
  ⟨.ofFn fun k => f (.force k), .ofFn fun k => f (.position k), f .entry, f .exit⟩
/-- The entries in number order. -/
def toList (t : PerChannel α) : List α :=
  t.force.toList ++ t.position.toList ++ [t.entry] ++ [t.exit]
end PerChannel

namespace PerSource
variable {α : Type}
/-- The entry of one source. -/
def get (t : PerSource α) : Source → α
  | .overload k => t.overload.get k
  | .position k => t.position.get k
  | .stripLost => t.stripLost
  | .exitGauge => t.exitGauge
  | .entryGauge => t.entryGauge
  | .channelFault => t.channelFault
  | .estop e => t.estop.get e
  | .linkSilent => t.linkSilent
  | .commanded => t.commanded
  | .monitorLimit => t.monitorLimit
  | .poolFull => t.poolFull
/-- The table with one entry replaced. -/
def set (t : PerSource α) : Source → α → PerSource α
  | .overload k, x => { t with overload := t.overload.set k x }
  | .position k, x => { t with position := t.position.set k x }
  | .stripLost, x => { t with stripLost := x }
  | .exitGauge, x => { t with exitGauge := x }
  | .entryGauge, x => { t with entryGauge := x }
  | .channelFault, x => { t with channelFault := x }
  | .estop e, x => { t with estop := t.estop.set e x }
  | .linkSilent, x => { t with linkSilent := x }
  | .commanded, x => { t with commanded := x }
  | .monitorLimit, x => { t with monitorLimit := x }
  | .poolFull, x => { t with poolFull := x }
/-- The table with the same entry everywhere. -/
def fill (x : α) : PerSource α :=
  ⟨.fill x, .fill x, x, x, x, x, .fill x, x, x, x, x⟩
/-- A function of the index, written out as a table. -/
def ofFn (f : Source → α) : PerSource α :=
  ⟨.ofFn fun k => f (.overload k), .ofFn fun k => f (.position k), f .stripLost, f .exitGauge, f .entryGauge, f .channelFault, .ofFn fun e => f (.estop e), f .linkSilent, f .commanded, f .monitorLimit, f .poolFull⟩
/-- The entries in number order. -/
def toList (t : PerSource α) : List α :=
  t.overload.toList ++ t.position.toList ++ [t.stripLost] ++ [t.exitGauge] ++ [t.entryGauge] ++ [t.channelFault] ++ t.estop.toList ++ [t.linkSilent] ++ [t.commanded] ++ [t.monitorLimit] ++ [t.poolFull]
end PerSource

namespace EStop
/-- The inputs A to D in order. -/
def all : List EStop := [.a, .b, .c, .d]
/-- A is 0, D is 3. -/
def idx : EStop → Nat
  | .a => 0
  | .b => 1
  | .c => 2
  | .d => 3
end EStop

namespace Span
/-- The spans in number order. -/
def all : List Span := .entry :: Stand.all.map .after
/-- The span's number, 0 to 6. -/
def num : Span → Nat
  | .entry => 0
  | .after k => k.num
/-- The span with a given number; none above 6. -/
def ofNat? : Nat → Option Span
  | 0 => some .entry
  | n => (Stand.ofNat? n).map .after
/-- The point at the downstream end of a span: point k+1 of span k. -/
def downstream : Span → Point
  | .entry => .stand .s1
  | .after k => match k.next? with
    | some j => .stand j
    | none => .exit
end Span

/-- The span that leads to a stand: span k-1 of stand k. -/
def Stand.spanBefore (k : Stand) : Span :=
  match k.prev? with
  | some j => .after j
  | none => .entry

/-- The point before a stand: point k-1 of stand k. -/
def Stand.pointBefore (k : Stand) : Point :=
  match k.prev? with
  | some j => .stand j
  | none => .entry

namespace Point
/-- The points in number order. -/
def all : List Point := [.entry] ++ Stand.all.map .stand ++ [.exit]
/-- The point's number, 0 to 7. -/
def num : Point → Nat
  | .entry => 0
  | .stand k => k.num
  | .exit => 7
end Point

namespace Channel
/-- The channels in number order. -/
def all : List Channel := Stand.all.map .force ++ Stand.all.map .position ++ [.entry, .exit]
/-- The channel's number, 0 to 13. -/
def num : Channel → Nat
  | .force k => k.num - 1
  | .position k => k.num + 5
  | .entry => 12
  | .exit => 13
/-- The channel with a given number; none above 13. -/
def ofNat? (n : Nat) : Option Channel := all[n]?
end Channel

namespace Source
/-- The sources in number order. -/
def all : List Source :=
  Stand.all.map .overload ++ Stand.all.map .position ++ [.stripLost, .exitGauge, .entryGauge, .channelFault] ++
    EStop.all.map .estop ++ [.linkSilent, .commanded, .monitorLimit, .poolFull]
/-- The source's number, 0 to 23. -/
def num : Source → Nat
  | .overload k => k.num - 1
  | .position k => k.num + 5
  | .stripLost => 12
  | .exitGauge => 13
  | .entryGauge => 14
  | .channelFault => 15
  | .estop e => 16 + e.idx
  | .linkSilent => 20
  | .commanded => 21
  | .monitorLimit => 22
  | .poolFull => 23
/-- The source with a given number; none above 23. -/
def ofNat? (n : Nat) : Option Source := all[n]?
end Source

end Sys2Proof
end

