-- ==== Sys2Proof/Config.lean ====
section
/-! DEFINITION. What is fixed in the part: its codes and the capacities of its stores. No rule of the spec leaves a result
open, so there is no free value here. -/
namespace Sys2Proof.Config

/-- R154: the vendor code. -/
def vendorCode : Int := 2406
/-- R154: the part code. -/
def partCode : Int := 6006
/-- R154: the revision. -/
def revision : Int := 3
/-- R24: segment records in the pool. -/
def poolSize : Nat := 64
/-- R53: coil records in the coil table. -/
def coilTableSize : Nat := 4
/-- R51: schedules in the schedule queue. -/
def scheduleQueueSize : Nat := 4
/-- R87: moves in a stand's pending queue. -/
def pendingSize : Nat := 4
/-- R163: reports in the report queue. -/
def reportQueueSize : Nat := 32
/-- R148: replies in the reply list. -/
def replyListSize : Nat := 8
/-- R147: the byte-gap limit, in byte times. -/
def byteGap : Nat := 32
/-- R144, R166: the value of a frame's start byte. -/
def startByte : Byte := 0xD5#8
/-- R38, R53, R65, R30: the value at which 16-bit counts stay. -/
def countMax : Nat := 65535

end Sys2Proof.Config
end

