-- ==== Sys2Proof/Syntax.lean ====
section
/-! DEFINITION. The commands: one constructor of `Instr` for each row of spec/opcode_table.json. A request carries the tag
byte and the fields of its payload as R166's request table lays them out, each in its width there. -/
namespace Sys2Proof

/-- The fields of SET_CHANNEL (R15, R166). -/
structure ChannelFields where
  channel : Byte
  enable : Byte
  zero : Word
  span : Word
  lo : Long
  hi : Long
  n : Byte
  staleTime : Word
deriving DecidableEq, Repr

/-- The fields of SET_STAND (R104, R166). -/
structure StandFields where
  stand : Byte
  gapMin : Word
  gapMax : Word
  f0 : Word
  m : Word
  fMax : Word
  biteOn : Word
  biteOff : Word
  setRate : Word
  agcRate : Word
  retractRate : Word
  stepMax : Word
  settleTime : Word
  inPos : Word
  posErrLimit : Word
  posErrCount : Word
deriving DecidableEq, Repr

/-- The fields of SET_AGC (R66, R166). -/
structure AgcFields where
  stand : Byte
  mode : Byte
  db : Byte
  gMon : Word
  lockonSeg : Byte
deriving DecidableEq, Repr

/-- The fields of SET_TRACKING (R47, R166). -/
structure TrackingFields where
  span : Byte
  length : Word
  prescaler : Byte
  perCount : Word
  segLen : Word
  headWindow : Word
  tailWindow : Word
  debounce : Byte
deriving DecidableEq, Repr

/-- One stand's items in LOAD_SCHEDULE (R50, R166). -/
structure StandScheduleFields where
  gap : Word
  h : Word
  q : Word
  gFb : Word
  gFf : Word
deriving DecidableEq, Repr

/-- The fields of LOAD_SCHEDULE (R51, R166). -/
structure ScheduleFields where
  coil : Word
  hNom : Word
  stands : PerStand StandScheduleFields
deriving DecidableEq, Repr

/-- The fields of SET_SOURCE (R122, R166). -/
structure SourceFields where
  source : Byte
  mode : Byte
  priority : Byte
  action : Byte
  masked : Byte
deriving DecidableEq, Repr

/-- The commands of spec/opcode_table.json, in the table's order. -/
inductive Instr where
  /-- IDENTIFY (R154). -/
  | identify (tag : Byte)
  /-- STATUS (R157). -/
  | status (tag : Byte)
  /-- SET_CHANNEL (R15). -/
  | setChannel (tag : Byte) (f : ChannelFields)
  /-- READ_CHANNEL (R159). -/
  | readChannel (tag channel : Byte)
  /-- SET_STAND (R104). -/
  | setStand (tag : Byte) (f : StandFields)
  /-- READ_STAND (R158). -/
  | readStand (tag stand : Byte)
  /-- SET_AGC (R66). -/
  | setAgc (tag : Byte) (f : AgcFields)
  /-- SET_TRACKING (R47). -/
  | setTracking (tag : Byte) (f : TrackingFields)
  /-- READ_SEGMENT (R161). -/
  | readSegment (tag : Byte) (id : Word)
  /-- READ_COIL (R162). -/
  | readCoil (tag : Byte)
  /-- LOAD_SCHEDULE (R51). -/
  | loadSchedule (tag : Byte) (f : ScheduleFields)
  /-- FLUSH_SCHEDULES (R52). -/
  | flushSchedules (tag : Byte)
  /-- MOVE (R94). -/
  | move (tag stand : Byte) (target rate : Word)
  /-- HOLD_MOVE (R97). -/
  | holdMove (tag stand : Byte)
  /-- RESUME_MOVE (R98). -/
  | resumeMove (tag stand : Byte)
  /-- CANCEL_MOVE (R99): `named` is the tag in the payload. -/
  | cancelMove (tag named : Byte)
  /-- SET_SOURCE (R122). -/
  | setSource (tag : Byte) (f : SourceFields)
  /-- SET_CEILING (R124). -/
  | setCeiling (tag ceiling : Byte)
  /-- READ_TRIPS (R160). -/
  | readTrips (tag : Byte)
  /-- PEEK_TRIP (R117). -/
  | peekTrip (tag : Byte)
  /-- TAKE_TRIP (R116). -/
  | takeTrip (tag : Byte)
  /-- END_TRIP (R119, R120). -/
  | endTrip (tag form source : Byte)
  /-- RAISE_TRIP (R125). -/
  | raiseTrip (tag : Byte)
  /-- CLEAR_STOP (R133). -/
  | clearStop (tag : Byte)
  /-- UNLOCK (R138). -/
  | unlock (tag : Byte)
  /-- RESTART (R139, R140). -/
  | restart (tag : Byte)
  /-- SET_LINK (R150). -/
  | setLink (tag : Byte) (supervision : Word) (debounce : Byte)
  /-- UNKNOWN_REQUEST (R151): a good frame whose type is no request type. -/
  | unknownRequest (type tag : Byte) (payload : List Byte)
  /-- RECEIVE_BYTE (R146). -/
  | receiveByte (b : Byte)
  /-- LINE_BREAK (R147). -/
  | lineBreak
  /-- BYTE_GAP_EXPIRY (R147). -/
  | byteGapExpiry
  /-- SUPERVISION_EXPIRY (R149). -/
  | supervisionExpiry
  /-- TRANSMIT_DONE (R153). -/
  | transmitDone
  /-- SAMPLE (R2): channel number, raw count, converter-valid flag. -/
  | sample (channel : Nat) (raw : Word) (valid : Bool)
  /-- STALE_TIMER_EXPIRY (R10). -/
  | staleTimerExpiry (c : Channel)
  /-- PULSE (R21): a pulse on the input that feeds the span's counter. -/
  | pulse (input : Span)
  /-- COUNT (R21): the counter's pulse tally reaches P. -/
  | count (counter : Span)
  /-- HEAD_WATCH_EXPIRY (R42). -/
  | headWatchExpiry (k : Stand)
  /-- TAIL_WATCH_EXPIRY (R45). -/
  | tailWatchExpiry (k : Stand)
  /-- STRIP_PRESENT_CHANGE (R28): the raw input's new level. -/
  | stripPresentChange (present : Bool)
  /-- STRIP_PRESENT_DEBOUNCE_EXPIRY (R28). -/
  | stripPresentDebounceExpiry
  /-- ESTOP_INPUT_CHANGE (R134): the input and whether its line is now low. -/
  | estopInputChange (e : EStop) (low : Bool)
  /-- ESTOP_DEBOUNCE_EXPIRY (R134). -/
  | estopDebounceExpiry (e : EStop)
  /-- UPDATE_EXPIRY (R89). -/
  | updateExpiry (k : Stand)
  /-- RAMP_DONE (R89). -/
  | rampDone (k : Stand)
  /-- SETTLE_TIMER_EXPIRY (R90). -/
  | settleTimerExpiry (k : Stand)
  /-- POWER_ON_RESET (R142). -/
  | powerOnReset
  /-- RESET_ASSERTED (R142). -/
  | resetAsserted
  /-- RESET_RELEASED (R142). -/
  | resetReleased
deriving DecidableEq, Repr

end Sys2Proof
end

