-- ==== Sys2Proof/WellFormed.lean ====
section
/-! DEFINITION. Which terms of `Instr` are commands. The operand types leave one constructor to check: UNKNOWN_REQUEST is a
frame whose type is no request type (R151), and a frame's payload has at most 240 bytes (R144). -/
namespace Sys2Proof

/-- R166: the request types are 0x01 to 0x1B. -/
def isRequestType (type : Byte) : Bool := 1 ≤ type.toNat && type.toNat ≤ 27

/-- R144: a payload of 0 to 240 bytes. -/
def payloadFits (payload : List Byte) : Bool := payload.length ≤ 240

/-- The well-formed commands. -/
def Instr.wf : Instr → Bool
  | .unknownRequest type _ payload => !isRequestType type && payloadFits payload
  | _ => true

end Sys2Proof
end

