-- ==== Sys2Proof/Machine/State.lean ====
section
/-! DEFINITION. Every piece of state the spec gives the part, block by block (00_scope.md, "Blocks and how they work
together"), its reset values, and the reasons a command can stop. INVENTORY.md lists each with its rule. -/
namespace Sys2Proof.Machine

/-! ### Channel unit -/

/-- R1: the channel states. -/
inductive ChanState where
  | off | settling | valid | stale | fault
deriving DecidableEq, Repr

/-- R17: the causes of a CHANNEL_STATE report. -/
inductive ChanCause where
  | invalid | outOfRange | stale | enable | samples
deriving DecidableEq, Repr

/-- R1: a channel record but for the comparators, which `ChannelUnit` keeps by stand. -/
structure ChannelRec where
  enabled : Bool
  zero : Nat
  span : Nat
  lo : Int
  hi : Int
  /-- The filter length N. -/
  n : Nat
  staleTime : Nat
  st : ChanState
  /-- The filter list, oldest first. -/
  filter : List Int
  filtered : Option Int
  last : Option Int
  invalidCount : Nat
  rangeCount : Nat
  /-- The stale timer: ms left, or stopped. -/
  staleLeft : Option Nat
deriving DecidableEq, Repr

/-- The channel unit (R1, R13, R14). -/
structure ChannelUnit where
  recs : PerChannel ChannelRec
  /-- Bite state: true is IN. -/
  biteIn : PerStand Bool
  overload : PerStand Bool
deriving DecidableEq, Repr

/-! ### Length counters -/

/-- R20: a length counter. -/
structure Counter where
  prescaler : Nat
  /-- Length per count, µm. -/
  perCount : Nat
  tally : Nat
  /-- The micrometre remainder. -/
  rest : Nat
deriving DecidableEq, Repr

/-! ### Tracking unit -/

/-- R23: the kinds of segment record. -/
inductive Kind where
  | head | body | tail
deriving DecidableEq, Repr

/-- R23: a segment record in use, but for its distance to go (`Queued`). -/
structure Seg where
  id : Nat
  kind : Kind
  coil : Nat
  /-- The MODEL's own: which coil record the record was born for, since coil numbers may repeat (R50; log 8). -/
  coilKey : Nat
  entryLen : Option Nat
  /-- Deviations d_0 to d_7. -/
  dev : PerPoint (Option Int)
  offGauge : Bool
  lockonAt : PerStand Bool
deriving DecidableEq, Repr

/-- R23, R26: a record in a span queue with its distance to go. -/
structure Queued where
  seg : Seg
  dist : Int
deriving DecidableEq, Repr

/-- R38: a point accumulator. -/
structure Acc where
  sum : Int
  count : Nat
deriving DecidableEq, Repr

/-- R29: the entry states. -/
inductive EntryState where
  | empty | admitted | rejected
deriving DecidableEq, Repr

/-- The tracking unit (R23 to R48). The pool is what the span queues and the record under point 7 hold: each record in
use is in exactly one of them (R26), and the rest of the 64 are free. -/
structure Tracking where
  spanLen : PerSpan Nat
  segLen : Nat
  headWindow : Nat
  tailWindow : Nat
  /-- Strip-present debounce time, ms. -/
  debounce : Nat
  nextId : Nat
  /-- Span queues, front (oldest) first. -/
  queues : PerSpan (List Queued)
  /-- Id of the record under point 0. -/
  underEntry : Option Nat
  /-- Ids of the records under points 1 to 6. -/
  underStand : PerStand (Option Nat)
  /-- The record under point 7, which is in no span queue (R27). -/
  underExit : Option Seg
  acc : PerPoint Acc
  /-- Remaining length of a RUNNING head watch; absent is IDLE. -/
  headWatch : PerStand (Option Nat)
  /-- Remaining length of a RUNNING tail watch; absent is IDLE. -/
  tailWatch : PerStand (Option Nat)
  entry : EntryState
  entryDist : Nat
  /-- The condition of POOL_FULL (R31). -/
  poolFull : Bool
  /-- Debounced strip-present state: true is PRESENT. -/
  strip : Bool
  stripTimer : Option Nat
deriving DecidableEq, Repr

/-! ### Schedule store -/

/-- R50: one stand's items of a schedule. -/
structure StandSchedule where
  gap : Int
  h : Int
  q : Int
  gFb : Int
  gFf : Int
deriving DecidableEq, Repr

/-- R50: a pass schedule. -/
structure Schedule where
  coil : Nat
  hNom : Int
  stands : PerStand StandSchedule
deriving DecidableEq, Repr

/-- R53: a coil record. -/
structure Coil where
  /-- The MODEL's own key (log 8). -/
  key : Nat
  number : Nat
  /-- The bound schedule; the coil is scheduled exactly when it is present. -/
  schedule : Option Schedule
  head : PerPoint Bool
  tail : PerPoint Bool
  setup : PerStand Bool
  segCount : Nat
  offCount : Nat
deriving DecidableEq, Repr

/-- The schedule store with the coil table (R51, R53, R55). -/
structure SchedStore where
  queue : List Schedule
  /-- Oldest first. -/
  coils : List Coil
  lastCoil : Nat
  /-- The MODEL's own: the key the next coil record is given (log 8). -/
  nextKey : Nat
deriving DecidableEq, Repr

/-! ### Gauge control unit -/

/-- R65: the AGC modes. -/
inductive AgcMode where
  | off | absolute | lockon
deriving DecidableEq, Repr

/-- R65, R71: the AGC states. -/
inductive AgcState where
  | off | armed | active | suspended
deriving DecidableEq, Repr

/-- R65: what gauge control holds for each stand. -/
structure AgcStand where
  mode : AgcMode
  href : Option Int
  st : AgcState
  lockonCount : Nat
  stepLimited : Bool
  atLimit : Bool
deriving DecidableEq, Repr

/-- The gauge control unit (R65). -/
structure Gauge where
  stands : PerStand AgcStand
  db : Int
  gMon : Int
  lockonSeg : Nat
  /-- The stand 6 monitor trim. -/
  m : Int
deriving DecidableEq, Repr

/-! ### Move engines -/

/-- R84: move origins. -/
inductive Origin where
  | setup | link | feedback | retract
deriving DecidableEq, Repr

/-- R84, R86: a move as it is formed. -/
structure Move where
  origin : Origin
  target : Int
  /-- Step per update, µm. -/
  step : Nat
  tag : Option Tag
  clamped : Bool
deriving DecidableEq, Repr

/-- R84: an active move: a move with its remaining count of updates. -/
structure Active where
  move : Move
  remaining : Nat
deriving DecidableEq, Repr

/-- R97: the state a move was held from. -/
inductive Phase where
  | ramping | settling
deriving DecidableEq, Repr

/-- R84: the engine state together with the active move: IDLE exactly while there is none. -/
inductive Activity where
  | idle
  | ramping (a : Active)
  | settling (a : Active)
  | held (a : Active) (heldFrom : Phase)
deriving DecidableEq, Repr

/-- R104: a stand's fifteen settings. -/
structure StandCfg where
  gapMin : Int
  gapMax : Int
  f0 : Int
  m : Int
  fMax : Int
  biteOn : Int
  biteOff : Int
  setRate : Nat
  agcRate : Nat
  retractRate : Nat
  stepMax : Int
  settleTime : Nat
  inPos : Int
  posErrLimit : Int
  posErrCount : Nat
deriving DecidableEq, Repr

/-- R84: a stand's move engine. -/
structure Engine where
  ref : Int
  act : Activity
  /-- Oldest first. -/
  pending : List Move
  retracted : Bool
  settleLeft : Option Nat
  posErr : Nat
  cfg : StandCfg
deriving DecidableEq, Repr

/-- R85: what the stand reference port has sent to one stand's servo controller. -/
structure PortOut where
  /-- The last value sent, which the servo controller holds. -/
  last : Option Int
  /-- The MODEL's own: how many values were sent since reset (log 14). -/
  sends : Nat
deriving DecidableEq, Repr

/-! ### Trip controller -/

/-- R108: source modes. -/
inductive SrcMode where
  | edge | level
deriving DecidableEq, Repr

/-- R108: actions. -/
inductive Action where
  | alarm | hold | retract | stop
deriving DecidableEq, Repr

/-- R108: source states. -/
inductive SrcState where
  | quiet | pending | inService
deriving DecidableEq, Repr

/-- R108: a source record; its scope is fixed by the source (`Source.scope`). -/
structure SourceRec where
  mode : SrcMode
  priority : Nat
  action : Action
  masked : Bool
  st : SrcState
  acted : Bool
  rep : Bool
  live : Bool
deriving DecidableEq, Repr

/-- R110: the inputs the trip controller keeps for sources 13 to 15. -/
structure TripInputs where
  chan : PerChannel ChanState
  /-- Kind of the record under point 7. -/
  exitKind : Option Kind
  strip : Bool
deriving DecidableEq, Repr

/-- The trip controller (R108). -/
structure Trips where
  src : PerSource SourceRec
  ceiling : Nat
  /-- The in-service stack, top first. -/
  stack : List Source
  inputs : TripInputs
deriving DecidableEq, Repr

/-! ### Interlock unit -/

/-- R128: an entry of an action set. -/
structure Entry where
  source : Source
  action : Action
deriving DecidableEq, Repr

/-- R134: a debounced E-stop input. -/
structure EStopRec where
  demanded : Bool
  timer : Option Nat
deriving DecidableEq, Repr

/-- R141: reset causes. -/
inductive ResetCause where
  | power | line | restart
deriving DecidableEq, Repr

/-- The interlock unit (R128 to R142). -/
structure Interlock where
  sets : PerStand (List Entry)
  /-- The STOP line: true is ASSERTED. -/
  stop : Bool
  /-- The lock: true is OPEN. -/
  lockOpen : Bool
  estop : PerEStop EStopRec
  debounce : Nat
  cause : ResetCause
deriving DecidableEq, Repr

/-! ### Link controller -/

/-- R152: statuses. -/
inductive Status where
  | ok | adjusted | none | unknownType | badLength | range | busy | queueFull | tagBusy | notFound | locked | tripped
  | running
deriving DecidableEq, Repr

/-- R91: move statuses of MOVE_DONE. -/
inductive MoveStatus where
  | reached | settleTimeout | cancelled | abortedTrip | refusedTrip | queueFull
deriving DecidableEq, Repr

/-- The six report kinds with the fields their owners place in them (09, "Reports"). -/
inductive Report where
  | started (cause : ResetCause)
  | tripRaised (source : Source) (priority : Nat) (action : Action) (eligible acted : Bool)
  | moveDone (stand : Stand) (tag : Option Tag) (origin : Origin) (status : MoveStatus) (clamped : Bool) (ref : Int)
      (position : Option Int)
  | segment (seg : Seg)
  | channelState (channel : Channel) (st : ChanState) (cause : ChanCause)
  | coilEnd (number : Nat) (scheduled : Bool) (segCount offCount : Nat)
deriving DecidableEq, Repr

/-- R152: a reply as its request's handling left it: type and tag as received, status, content bytes. -/
structure Reply where
  type : Byte
  tag : Byte
  status : Status
  content : List Byte
deriving DecidableEq, Repr

/-- R146: the receiver's states with the part of a frame each has. -/
inductive Rx where
  | hunt
  | length
  | body (len : Nat) (got : List Byte)
  | check (len : Nat) (got : List Byte) (high : Option Byte)
deriving DecidableEq, Repr

/-- R153: the two kinds of frame the transmitter arbitrates between. -/
inductive TxKind where
  | reply | report
deriving DecidableEq, Repr

/-- R143: the link rates. -/
inductive LinkRate where
  | mbit1 | mbit2 | mbit4
deriving DecidableEq, Repr

/-- The link controller (R143 to R155, R163 to R165). -/
structure Link where
  rx : Rx
  /-- Byte-gap timer, byte times left. -/
  gapLeft : Option Nat
  supTime : Nat
  supLeft : Option Nat
  /-- Oldest first. -/
  replies : List Reply
  /-- Oldest first. -/
  reports : List Report
  lost : Bool
  /-- The frame in transmission; absent while the transmitter is idle. -/
  sending : Option (List Byte)
  lastSent : TxKind
  /-- R153: no choice between two waiting kinds has been made since the reset; the first goes to the report. -/
  firstChoice : Bool
  attn : Bool
  rate : LinkRate
deriving DecidableEq, Repr

/-! ### Lines -/

/-- The levels the world puts on the part's inputs. -/
structure Pins where
  /-- Raw strip-present input. -/
  strip : Bool
  /-- Whether each E-stop line is low. -/
  estopLow : PerEStop Bool
  straps : LinkRate
  /-- The RESET input is asserted: the part is held in reset (R142). -/
  reset : Bool
deriving DecidableEq, Repr

/-- The whole part, and the queue of commands that wait. -/
structure State where
  chan : ChannelUnit
  counters : PerSpan Counter
  trk : Tracking
  sched : SchedStore
  gauge : Gauge
  eng : PerStand Engine
  slots : PerTag (Option Stand)
  port : PerStand PortOut
  trips : Trips
  ilk : Interlock
  link : Link
  pins : Pins
  /-- The MODEL's own: commands waiting, first in first out (log 15). -/
  pending : List Instr
deriving DecidableEq, Repr

/-! ### Stops -/

/-- Reasons the machine stops with a fault: the part has none (INVENTORY.md, Faults). -/
inductive Fault where
deriving DecidableEq, Repr

/-- Reasons a command is refused. -/
inductive Refusal where
  /-- `exec`'s arm of a command without a meaning. Safe. No arm raises it in this model. -/
  | notModelled (mnemonic : String)
  /-- UNKNOWN_REQUEST with a type that is a request type: such a frame is that request, not this command (R151, R166).
  Safe. -/
  | typeIsARequest
  /-- UNKNOWN_REQUEST with a payload above 240 bytes: no frame carries it (R144). Safe. -/
  | payloadTooLong
deriving DecidableEq, Repr

/-! ### Reset -/

/-- R18: a channel after reset, given the full range of its quantity (R1). -/
def ChannelRec.reset (lo hi : Int) : ChannelRec where
  enabled := false
  zero := 0
  span := 65535
  lo := lo
  hi := hi
  n := 4
  staleTime := 20
  st := .off
  filter := []
  filtered := none
  last := none
  invalidCount := 0
  rangeCount := 0
  staleLeft := none

/-- R18: the channel unit after reset. -/
def ChannelUnit.reset : ChannelUnit where
  recs :=
    { force := .fill (.reset (-2000) 60000), position := .fill (.reset 0 30000), entry := .reset 0 30000,
      exit := .reset 0 30000 }
  biteIn := .fill false
  overload := .fill false

/-- R22: a counter after reset. -/
def Counter.reset : Counter := { prescaler := 1, perCount := 1000, tally := 0, rest := 0 }

/-- R48: the tracking unit after reset. -/
def Tracking.reset : Tracking where
  spanLen := { entry := 3000, after := ⟨4000, 4000, 4000, 4000, 4000, 6000⟩ }
  segLen := 2000
  headWindow := 500
  tailWindow := 500
  debounce := 10
  nextId := 0
  queues := .fill []
  underEntry := none
  underStand := .fill none
  underExit := none
  acc := .fill { sum := 0, count := 0 }
  headWatch := .fill none
  tailWatch := .fill none
  entry := .empty
  entryDist := 0
  poolFull := false
  strip := false
  stripTimer := none

/-- R63: the schedule store after reset. -/
def SchedStore.reset : SchedStore := { queue := [], coils := [], lastCoil := 0, nextKey := 0 }

/-- R82: the gauge control unit after reset. -/
def Gauge.reset : Gauge where
  stands := .fill
    { mode := .off, href := none, st := .off, lockonCount := 0, stepLimited := false, atLimit := false }
  db := 10
  gMon := 32
  lockonSeg := 2
  m := 0

/-- R104: the default settings of a stand. -/
def StandCfg.reset : StandCfg where
  gapMin := 1000
  gapMax := 20000
  f0 := 0
  m := 5000
  fMax := 30000
  biteOn := 2000
  biteOff := 1000
  setRate := 20
  agcRate := 5
  retractRate := 200
  stepMax := 200
  settleTime := 50
  inPos := 20
  posErrLimit := 300
  posErrCount := 10

/-- R106: a move engine after reset. -/
def Engine.reset : Engine where
  ref := 20000
  act := .idle
  pending := []
  retracted := true
  settleLeft := none
  posErr := 0
  cfg := .reset

/-- R109, R126: a quiet source with a given default configuration. -/
def SourceRec.reset (mode : SrcMode) (priority : Nat) (action : Action) : SourceRec :=
  { mode := mode, priority := priority, action := action, masked := false, st := .quiet, acted := false, rep := false,
    live := false }

/-- R109, R126: the trip controller after reset. -/
def Trips.reset : Trips where
  src :=
    { overload := .fill (.reset .level 1 .retract), position := .fill (.reset .level 3 .hold),
      stripLost := .reset .edge 0 .stop, exitGauge := .reset .level 5 .alarm, entryGauge := .reset .level 5 .alarm,
      channelFault := .reset .level 4 .alarm, estop := .fill (.reset .level 0 .stop),
      linkSilent := .reset .edge 0 .stop, commanded := .reset .edge 0 .stop, monitorLimit := .reset .edge 6 .alarm,
      poolFull := .reset .edge 7 .alarm }
  ceiling := 8
  stack := []
  inputs := { chan := .fill .off, exitKind := none, strip := false }

/-- R142: the interlock unit after reset with a given cause. -/
def Interlock.reset (cause : ResetCause) : Interlock where
  sets := .fill []
  stop := true
  lockOpen := false
  estop := .fill { demanded := false, timer := none }
  debounce := 5
  cause := cause

/-- R155, R165: the link controller after reset, before STARTED is offered. `lastSent` is not read before a frame has been sent:
`firstChoice` decides the first choice between two waiting kinds (R153). -/
def Link.reset (rate : LinkRate) : Link where
  rx := .hunt
  gapLeft := none
  supTime := 250
  supLeft := none
  replies := []
  reports := []
  lost := false
  sending := none
  lastSent := .reply
  firstChoice := true
  attn := false
  rate := rate

/-- R141, R155: the STARTED report's frame with cause POWER, which the transmitter begins as the part leaves reset. -/
def startedPowerFrame : List Byte := [0xD5#8, 0x04#8, 0x80#8, 0xFF#8, 0x00#8, 0x00#8, 0x8A#8, 0x51#8]

/-- R18, R22, R48, R63, R82, R106, R126, R142, R155: the part just after power-on, with no line low, no strip at the entry
and the straps at 1 Mbit/s (DESIGN CHOICE, log 1) and STARTED being sent (log 5). -/
def State.reset : State where
  chan := .reset
  counters := .fill .reset
  trk := .reset
  sched := .reset
  gauge := .reset
  eng := .fill .reset
  slots := .fill none
  port := .fill { last := some 20000, sends := 1 }
  trips := .reset
  ilk := .reset .power
  link := { Link.reset .mbit1 with sending := some startedPowerFrame, lastSent := .report }
  pins := { strip := false, estopLow := .fill false, straps := .mbit1, reset := false }
  pending := []

end Sys2Proof.Machine
end

