-- ==== Sys2Proof/Machine/Operands.lean ====
section
/-! DEFINITION. The arithmetic of 00_scope.md ("Arithmetic"), the reading of request fields, and the code numbers of
R166's 11.5. -/
namespace Sys2Proof.Machine

/-! ### Arithmetic -/

/-- "Clamped to a..b". -/
def clamp (lo hi x : Int) : Int := if x < lo then lo else if hi < x then hi else x

/-- `clamp` for counts and times. -/
def clampNat (lo hi x : Nat) : Nat := if x < lo then lo else if hi < x then hi else x

/-- Division truncated toward zero. -/
def truncDiv (a b : Int) : Int := Int.tdiv a b

/-- Division by a positive number rounded to nearest, halves away from zero. -/
def roundDiv (a b : Int) : Int := if 0 ≤ a then (2 * a + b) / (2 * b) else -((2 * (-a) + b) / (2 * b))

/-- A count that stays at 65,535 once it gets there (R30, R53, R65). -/
def satAdd (a b : Nat) : Nat := min Config.countMax (a + b)

/-- R89: a distance divided by a step, rounded up. -/
def updatesFor (distance step : Nat) : Nat := (distance + (step - 1)) / step

/-- The largest entry of a rising list that is not above a value; the first entry when there is none (R15, R47). -/
def largestAtMost (first : Nat) (rest : List Nat) (x : Nat) : Nat :=
  rest.foldl (fun best c => if c ≤ x then c else best) first

/-- R15: the filter length for a value sent. -/
def filterLength (x : Nat) : Nat := largestAtMost 1 [2, 4, 8, 16] x

/-- R47: the prescaler for a value sent. -/
def prescalerFor (x : Nat) : Nat := largestAtMost 1 [2, 4, 8, 16, 32, 64, 128] x

/-! ### Fields of a received payload (R167) -/

/-- A two-byte field, most significant byte first. -/
def word (hi lo : Byte) : Word := hi ++ lo

/-- A four-byte field, most significant byte first. -/
def long (b3 b2 b1 b0 : Byte) : Long := b3 ++ b2 ++ b1 ++ b0

/-- Byte `i` of a payload whose size has been checked. -/
def byteAt (p : List Byte) (i : Nat) : Byte := p.getD i 0

/-- The two-byte field at offset `i`. -/
def wordAt (p : List Byte) (i : Nat) : Word := word (byteAt p i) (byteAt p (i + 1))

/-- The four-byte field at offset `i`. -/
def longAt (p : List Byte) (i : Nat) : Long :=
  long (byteAt p i) (byteAt p (i + 1)) (byteAt p (i + 2)) (byteAt p (i + 3))

/-- An unsigned field as an integer (R167). -/
def uint {w : Nat} (x : BitVec w) : Int := x.toNat

/-- R167: a yes-or-no byte or any code 0 or 1 that means a mark. -/
def yesNo? (b : Byte) : Option Bool :=
  match b.toNat with
  | 0 => some false
  | 1 => some true
  | _ => none

/-- R166: AGC mode codes. -/
def agcMode? (b : Byte) : Option AgcMode :=
  match b.toNat with
  | 0 => some .off
  | 1 => some .absolute
  | 2 => some .lockon
  | _ => none

/-- R166: source mode codes. -/
def srcMode? (b : Byte) : Option SrcMode :=
  match b.toNat with
  | 0 => some .edge
  | 1 => some .level
  | _ => none

/-- R166: action codes. -/
def action? (b : Byte) : Option Action :=
  match b.toNat with
  | 0 => some .alarm
  | 1 => some .hold
  | 2 => some .retract
  | 3 => some .stop
  | _ => none

/-! ### Codes the part sends (R166, 11.5) -/

/-- Status codes. -/
def Status.code : Status → Byte
  | .ok => 0x00
  | .adjusted => 0x01
  | .none => 0x02
  | .unknownType => 0x10
  | .badLength => 0x11
  | .range => 0x12
  | .busy => 0x13
  | .queueFull => 0x14
  | .tagBusy => 0x15
  | .notFound => 0x16
  | .locked => 0x17
  | .tripped => 0x18
  | .running => 0x19

/-- Move status codes. -/
def MoveStatus.code : MoveStatus → Byte
  | .reached => 0
  | .settleTimeout => 1
  | .cancelled => 2
  | .abortedTrip => 3
  | .refusedTrip => 4
  | .queueFull => 5

/-- Origin codes. -/
def Origin.code : Origin → Byte
  | .setup => 0
  | .link => 1
  | .feedback => 2
  | .retract => 3

/-- Action codes. -/
def Action.code : Action → Byte
  | .alarm => 0
  | .hold => 1
  | .retract => 2
  | .stop => 3

/-- Source mode codes. -/
def SrcMode.code : SrcMode → Byte
  | .edge => 0
  | .level => 1

/-- Kind codes. -/
def Kind.code : Kind → Byte
  | .head => 0
  | .body => 1
  | .tail => 2

/-- AGC mode codes. -/
def AgcMode.code : AgcMode → Byte
  | .off => 0
  | .absolute => 1
  | .lockon => 2

/-- AGC state codes. -/
def AgcState.code : AgcState → Byte
  | .off => 0
  | .armed => 1
  | .active => 2
  | .suspended => 3

/-- Engine state codes. -/
def Activity.code : Activity → Byte
  | .idle => 0
  | .ramping _ => 1
  | .settling _ => 2
  | .held _ _ => 3

/-- Engine state codes of a held-from state. -/
def Phase.code : Phase → Byte
  | .ramping => 1
  | .settling => 2

/-- Channel state codes. -/
def ChanState.code : ChanState → Byte
  | .off => 0
  | .settling => 1
  | .valid => 2
  | .stale => 3
  | .fault => 4

/-- CHANNEL_STATE cause codes. -/
def ChanCause.code : ChanCause → Byte
  | .invalid => 0
  | .outOfRange => 1
  | .stale => 2
  | .enable => 3
  | .samples => 4

/-- Source state codes. -/
def SrcState.code : SrcState → Byte
  | .quiet => 0
  | .pending => 1
  | .inService => 2

/-- Reset cause codes. -/
def ResetCause.code : ResetCause → Byte
  | .power => 0
  | .line => 1
  | .restart => 2

/-- A yes-or-no byte (R167), and every two-valued code of 11.5 whose first value is 0. -/
def bit (b : Bool) : Byte := if b then 1 else 0

/-! ### Fields the part sends (R167, R168) -/

/-- A one-byte field. -/
def be1 (x : Int) : List Byte := [BitVec.ofInt 8 x]

/-- A two-byte field, most significant byte first; a negative value is two's complement. -/
def be2 (x : Int) : List Byte :=
  let v := BitVec.ofInt 16 x
  [v.extractLsb' 8 8, v.extractLsb' 0 8]

/-- A four-byte field. -/
def be4 (x : Int) : List Byte :=
  let v := BitVec.ofInt 32 x
  [v.extractLsb' 24 8, v.extractLsb' 16 8, v.extractLsb' 8 8, v.extractLsb' 0 8]

/-- R168: an optional value: its presence byte, then its field, filled with zero bytes when it is absent. -/
def optional {α : Type} (size : Nat) (enc : α → List Byte) : Option α → List Byte
  | none => 0 :: List.replicate size 0
  | some x => 1 :: enc x

/-- R168: a counted list: a one-byte count, then its entries. -/
def counted {α : Type} (enc : α → List Byte) (xs : List α) : List Byte := be1 xs.length ++ xs.flatMap enc

/-- The byte with bit i set where entry i of the list is true. -/
def bits (marks : List Bool) : Nat := marks.foldr (fun b acc => (if b then 1 else 0) + 2 * acc) 0

/-- R168: a set of stands as one byte, bit k for stand k. -/
def standSet (t : PerStand Bool) : List Byte := be1 (bits (false :: t.toList))

/-- R168: a set of points as one byte, bit p for point p. -/
def pointSet (t : PerPoint Bool) : List Byte := be1 (bits t.toList)

/-- R168: a set of sources as three bytes, most significant first, bit s for source s. -/
def sourceSet (xs : List Source) : List Byte :=
  let n := bits (Source.all.map fun s => xs.contains s)
  be1 (n / 65536) ++ be2 (n % 65536)

end Sys2Proof.Machine
end

