-- ==== Sys2Proof/Machine/Wire.lean ====
section
/-! DEFINITION. Frames on the control link (R144, R145, R166), the layouts of reports (R169), and of the requests
(R166, 11.3). -/
namespace Sys2Proof.Machine

/-! ### The check -/

/-- One bit of the check's register (R145: x^16 + x^12 + x^5 + 1, not reflected). -/
def crcBit (c : BitVec 16) : BitVec 16 := if c.msb then (c <<< 1) ^^^ 0x1021#16 else c <<< 1

/-- `n` bits. -/
def crcBits : Nat → BitVec 16 → BitVec 16
  | 0, c => c
  | n + 1, c => crcBits n (crcBit c)

/-- One byte fed, most significant bit first. -/
def crcByte (c : BitVec 16) (b : Byte) : BitVec 16 := crcBits 8 (c ^^^ (b ++ 0#8))

/-- R145: the check over the bytes from the length byte to the end of the payload. -/
def crc (bytes : List Byte) : BitVec 16 := bytes.foldl crcByte 0xFFFF#16

/-! ### Frames -/

/-- R144: a whole frame: start, length, type, tag, payload, check high byte first. -/
def frame (type tag : Byte) (payload : List Byte) : List Byte :=
  let covered := BitVec.ofNat 8 (payload.length + 2) :: type :: tag :: payload
  let c := crc covered
  Config.startByte :: covered ++ [c.extractLsb' 8 8, c.extractLsb' 0 8]

/-- R152: a reply's frame: its status is payload byte 0. -/
def Reply.frame (r : Reply) : List Byte := Machine.frame r.type r.tag (r.status.code :: r.content)

/-! ### Reports (R169) -/

/-- Report type codes. -/
def Report.type : Report → Byte
  | .started .. => 0x80
  | .tripRaised .. => 0x81
  | .moveDone .. => 0x82
  | .segment .. => 0x83
  | .channelState .. => 0x84
  | .coilEnd .. => 0x85

/-- The TRIP_RAISED kind, which the report queue prefers (R163). -/
def Report.isTrip : Report → Bool
  | .tripRaised .. => true
  | _ => false

/-- Bytes 1 to 26 of a SEGMENT report, and the record contents of a READ_SEGMENT reply (R168). -/
def Seg.bytes (g : Seg) : List Byte :=
  be2 g.id ++ [g.kind.code] ++ be2 g.coil ++ be1 (bits [g.offGauge, g.entryLen.isSome]) ++ standSet g.lockonAt ++
    be1 (bits (g.dev.toList.map Option.isSome)) ++ be2 (g.entryLen.getD 0) ++
    g.dev.toList.flatMap fun d => be2 (d.getD 0)

/-- R91, R169: the tag of a MOVE_DONE, 255 for a move without one. -/
def tagByte : Option Tag → Byte
  | some t => BitVec.ofNat 8 t.num
  | none => 0xFF

/-- A report's payload after its flags byte. -/
def Report.body : Report → List Byte
  | .started cause => [cause.code]
  | .tripRaised source priority action eligible acted =>
    be1 source.num ++ be1 priority ++ [action.code] ++ be1 (bits [eligible, acted])
  | .moveDone stand tag origin status clamped ref position =>
    be1 stand.num ++ [tagByte tag, origin.code, status.code] ++ be1 (bits [clamped, position.isSome]) ++ be2 ref ++
      be2 (position.getD 0)
  | .segment seg => seg.bytes
  | .channelState channel st cause => be1 channel.num ++ [st.code, cause.code]
  | .coilEnd number scheduled segCount offCount => be2 number ++ [bit scheduled] ++ be2 segCount ++ be2 offCount

/-- R164, R169: a report's frame, built with the lost mark as it begins to be sent; its tag is 255. -/
def Report.frame (r : Report) (lost : Bool) : List Byte := Machine.frame r.type 0xFF (bit lost :: r.body)

/-! ### Requests (R166, 11.3) -/

/-- The payload size of each request type; none for a type that is no request. -/
def payloadSize? (type : Byte) : Option Nat :=
  match type.toNat with
  | 0x01 | 0x02 | 0x0A | 0x0C | 0x13 | 0x14 | 0x15 | 0x17 | 0x18 | 0x19 | 0x1A => some 0
  | 0x03 => some 17
  | 0x04 | 0x06 | 0x0E | 0x0F | 0x10 | 0x12 => some 1
  | 0x05 => some 31
  | 0x07 => some 6
  | 0x08 => some 13
  | 0x09 | 0x16 => some 2
  | 0x0B => some 64
  | 0x0D | 0x11 => some 5
  | 0x1B => some 3
  | _ => none

/-- SET_CHANNEL's fields in a payload. -/
def channelFieldsAt (p : List Byte) : ChannelFields where
  channel := byteAt p 0
  enable := byteAt p 1
  zero := wordAt p 2
  span := wordAt p 4
  lo := longAt p 6
  hi := longAt p 10
  n := byteAt p 14
  staleTime := wordAt p 15

/-- SET_STAND's fields in a payload. -/
def standFieldsAt (p : List Byte) : StandFields where
  stand := byteAt p 0
  gapMin := wordAt p 1
  gapMax := wordAt p 3
  f0 := wordAt p 5
  m := wordAt p 7
  fMax := wordAt p 9
  biteOn := wordAt p 11
  biteOff := wordAt p 13
  setRate := wordAt p 15
  agcRate := wordAt p 17
  retractRate := wordAt p 19
  stepMax := wordAt p 21
  settleTime := wordAt p 23
  inPos := wordAt p 25
  posErrLimit := wordAt p 27
  posErrCount := wordAt p 29

/-- SET_AGC's fields in a payload. -/
def agcFieldsAt (p : List Byte) : AgcFields where
  stand := byteAt p 0
  mode := byteAt p 1
  db := byteAt p 2
  gMon := wordAt p 3
  lockonSeg := byteAt p 5

/-- SET_TRACKING's fields in a payload. -/
def trackingFieldsAt (p : List Byte) : TrackingFields where
  span := byteAt p 0
  length := wordAt p 1
  prescaler := byteAt p 3
  perCount := wordAt p 4
  segLen := wordAt p 6
  headWindow := wordAt p 8
  tailWindow := wordAt p 10
  debounce := byteAt p 12

/-- One stand's items of LOAD_SCHEDULE, from their offset. -/
def standScheduleFieldsAt (p : List Byte) (i : Nat) : StandScheduleFields where
  gap := wordAt p i
  h := wordAt p (i + 2)
  q := wordAt p (i + 4)
  gFb := wordAt p (i + 6)
  gFf := wordAt p (i + 8)

/-- LOAD_SCHEDULE's fields in a payload. -/
def scheduleFieldsAt (p : List Byte) : ScheduleFields where
  coil := wordAt p 0
  hNom := wordAt p 2
  stands := .ofFn fun k => standScheduleFieldsAt p (4 + 10 * (k.num - 1))

/-- SET_SOURCE's fields in a payload. -/
def sourceFieldsAt (p : List Byte) : SourceFields where
  source := byteAt p 0
  mode := byteAt p 1
  priority := byteAt p 2
  action := byteAt p 3
  masked := byteAt p 4

/-- R151: the command a good frame with a payload of the right size is; a type that is no request type is
UNKNOWN_REQUEST. -/
def requestOf (type tag : Byte) (p : List Byte) : Instr :=
  match type.toNat with
  | 0x01 => .identify tag
  | 0x02 => .status tag
  | 0x03 => .setChannel tag (channelFieldsAt p)
  | 0x04 => .readChannel tag (byteAt p 0)
  | 0x05 => .setStand tag (standFieldsAt p)
  | 0x06 => .readStand tag (byteAt p 0)
  | 0x07 => .setAgc tag (agcFieldsAt p)
  | 0x08 => .setTracking tag (trackingFieldsAt p)
  | 0x09 => .readSegment tag (wordAt p 0)
  | 0x0A => .readCoil tag
  | 0x0B => .loadSchedule tag (scheduleFieldsAt p)
  | 0x0C => .flushSchedules tag
  | 0x0D => .move tag (byteAt p 0) (wordAt p 1) (wordAt p 3)
  | 0x0E => .holdMove tag (byteAt p 0)
  | 0x0F => .resumeMove tag (byteAt p 0)
  | 0x10 => .cancelMove tag (byteAt p 0)
  | 0x11 => .setSource tag (sourceFieldsAt p)
  | 0x12 => .setCeiling tag (byteAt p 0)
  | 0x13 => .readTrips tag
  | 0x14 => .peekTrip tag
  | 0x15 => .takeTrip tag
  | 0x16 => .endTrip tag (byteAt p 0) (byteAt p 1)
  | 0x17 => .raiseTrip tag
  | 0x18 => .clearStop tag
  | 0x19 => .unlock tag
  | 0x1A => .restart tag
  | 0x1B => .setLink tag (wordAt p 0) (byteAt p 2)
  | _ => .unknownRequest type tag p

/-- A two-byte request field as its bytes. -/
def wordBytes (w : Word) : List Byte := [w.extractLsb' 8 8, w.extractLsb' 0 8]

/-- A four-byte request field as its bytes. -/
def longBytes (w : Long) : List Byte :=
  [w.extractLsb' 24 8, w.extractLsb' 16 8, w.extractLsb' 8 8, w.extractLsb' 0 8]

/-- R166: the type, tag and payload of a request's frame; none for a command that is no request. The host's side of
`requestOf`. -/
def requestParts? : Instr → Option (Byte × Byte × List Byte)
  | .identify tag => some (0x01, tag, [])
  | .status tag => some (0x02, tag, [])
  | .setChannel tag f =>
    some (0x03, tag, [f.channel, f.enable] ++ wordBytes f.zero ++ wordBytes f.span ++ longBytes f.lo ++
      longBytes f.hi ++ [f.n] ++ wordBytes f.staleTime)
  | .readChannel tag channel => some (0x04, tag, [channel])
  | .setStand tag f =>
    some (0x05, tag, [f.stand] ++ wordBytes f.gapMin ++ wordBytes f.gapMax ++ wordBytes f.f0 ++ wordBytes f.m ++
      wordBytes f.fMax ++ wordBytes f.biteOn ++ wordBytes f.biteOff ++ wordBytes f.setRate ++ wordBytes f.agcRate ++
      wordBytes f.retractRate ++ wordBytes f.stepMax ++ wordBytes f.settleTime ++ wordBytes f.inPos ++
      wordBytes f.posErrLimit ++ wordBytes f.posErrCount)
  | .readStand tag stand => some (0x06, tag, [stand])
  | .setAgc tag f => some (0x07, tag, [f.stand, f.mode, f.db] ++ wordBytes f.gMon ++ [f.lockonSeg])
  | .setTracking tag f =>
    some (0x08, tag, [f.span] ++ wordBytes f.length ++ [f.prescaler] ++ wordBytes f.perCount ++ wordBytes f.segLen ++
      wordBytes f.headWindow ++ wordBytes f.tailWindow ++ [f.debounce])
  | .readSegment tag id => some (0x09, tag, wordBytes id)
  | .readCoil tag => some (0x0A, tag, [])
  | .loadSchedule tag f =>
    some (0x0B, tag, wordBytes f.coil ++ wordBytes f.hNom ++ f.stands.toList.flatMap fun g =>
      wordBytes g.gap ++ wordBytes g.h ++ wordBytes g.q ++ wordBytes g.gFb ++ wordBytes g.gFf)
  | .flushSchedules tag => some (0x0C, tag, [])
  | .move tag stand target rate => some (0x0D, tag, [stand] ++ wordBytes target ++ wordBytes rate)
  | .holdMove tag stand => some (0x0E, tag, [stand])
  | .resumeMove tag stand => some (0x0F, tag, [stand])
  | .cancelMove tag named => some (0x10, tag, [named])
  | .setSource tag f => some (0x11, tag, [f.source, f.mode, f.priority, f.action, f.masked])
  | .setCeiling tag ceiling => some (0x12, tag, [ceiling])
  | .readTrips tag => some (0x13, tag, [])
  | .peekTrip tag => some (0x14, tag, [])
  | .takeTrip tag => some (0x15, tag, [])
  | .endTrip tag form source => some (0x16, tag, [form, source])
  | .raiseTrip tag => some (0x17, tag, [])
  | .clearStop tag => some (0x18, tag, [])
  | .unlock tag => some (0x19, tag, [])
  | .restart tag => some (0x1A, tag, [])
  | .setLink tag supervision debounce => some (0x1B, tag, wordBytes supervision ++ [debounce])
  | .unknownRequest type tag payload => some (type, tag, payload)
  | .receiveByte _ | .lineBreak | .byteGapExpiry | .supervisionExpiry | .transmitDone | .sample _ _ _
  | .staleTimerExpiry _ | .pulse _ | .count _ | .headWatchExpiry _ | .tailWatchExpiry _ | .stripPresentChange _
  | .stripPresentDebounceExpiry | .estopInputChange _ _ | .estopDebounceExpiry _ | .updateExpiry _ | .rampDone _
  | .settleTimerExpiry _ | .powerOnReset | .resetAsserted | .resetReleased => none

end Sys2Proof.Machine
end

