-- ==== Sys2Proof/Machine/Flags.lean ====
section
/-! DEFINITION. What the rules derive from the state: the groupings of an action set, the conditions of the engines, the AGC
state, the coil at a point, the records in use, eligibility and the selection of TAKE_TRIP. -/
namespace Sys2Proof.Machine

/-! ### Action sets (R128) -/

/-- R108: the stands a source concerns. -/
def scope : Source → List Stand
  | .overload k | .position k => [k]
  | _ => Stand.all

/-- R128: a STOP entry is retract-type too. -/
def Action.isRetractType : Action → Bool
  | .retract | .stop => true
  | .alarm | .hold => false

/-- R128: a hold or a retract-type entry is blocking. -/
def Action.isBlocking : Action → Bool
  | .alarm => false
  | .hold | .retract | .stop => true

/-- Stand `k`'s action set holds RETRACT or STOP. -/
def State.retracting (s : State) (k : Stand) : Bool := (s.ilk.sets.get k).any fun e => e.action.isRetractType

/-- Stand `k`'s action set holds HOLD, RETRACT or STOP. -/
def State.blocked (s : State) (k : Stand) : Bool := (s.ilk.sets.get k).any fun e => e.action.isBlocking

/-- R158: the number of entries of one action in a stand's set. -/
def State.entryCount (s : State) (k : Stand) (a : Action) : Nat := (s.ilk.sets.get k).countP fun e => e.action == a

/-! ### Engines -/

/-- The active move, if any. -/
def Activity.active? : Activity → Option Active
  | .idle => none
  | .ramping a | .settling a | .held a _ => some a

/-- R84: IDLE. -/
def Activity.isIdle : Activity → Bool
  | .idle => true
  | .ramping _ | .settling _ | .held _ _ => false

/-- The active move is of the given origin. -/
def Activity.isOf (act : Activity) (o : Origin) : Bool := act.active?.any fun a => a.move.origin == o

/-- R92: a SETUP, LINK or RETRACT move is active or pending. -/
def Engine.planned (e : Engine) : Bool :=
  (e.act.active?.any fun a => a.move.origin != .feedback) || !e.pending.isEmpty

/-- R139: an engine that keeps the mill from being restarted. -/
def Engine.atRest (e : Engine) : Bool := e.act.isIdle && e.pending.isEmpty

/-- R103: the condition of the stand's POSITION source. -/
def Engine.posErrReached (e : Engine) : Bool := e.posErr == e.cfg.posErrCount

/-! ### Channels (R12) -/

/-- The channel is VALID. -/
def State.chanValid (s : State) (c : Channel) : Bool := (s.chan.recs.get c).st == .valid

/-- The filtered value a channel offers: present only while it is VALID. -/
def State.measured (s : State) (c : Channel) : Option Int :=
  if s.chanValid c then (s.chan.recs.get c).filtered else none

/-! ### AGC state (R71) -/

/-- The AGC state of a stand by R71's table. -/
def agcStateOf (s : State) (k : Stand) : AgcState :=
  let g := s.gauge.stands.get k
  if g.mode = .off then .off
  else if g.href.isNone then .armed
  else if s.chanValid (.force k) && s.chanValid (.position k) && !s.blocked k && !(s.eng.get k).planned then .active
  else .suspended

/-! ### Strip -/

/-- R56: the coil at a point: its HEAD has reached the point and its TAIL has not. -/
def State.coilAt (s : State) (p : Point) : Option Coil := s.sched.coils.find? fun c => c.head.get p && !c.tail.get p

/-- The coil record with a key. -/
def State.coilOf (s : State) (key : Nat) : Option Coil := s.sched.coils.find? fun c => c.key == key

/-- The segment records in use: those in the span queues and the record under point 7 (R26). -/
def Tracking.segs (t : Tracking) : List Seg :=
  (t.queues.toList.flatMap fun q => q.map Queued.seg) ++ t.underExit.toList

/-- The number of records in use. -/
def Tracking.used (t : Tracking) : Nat := t.segs.length

/-- R24: the free count. -/
def Tracking.free (t : Tracking) : Nat := Config.poolSize - t.used

/-- The record in use with an id. -/
def Tracking.find? (t : Tracking) (id : Nat) : Option Seg := t.segs.find? fun g => g.id == id

/-- R27: the id of the record under a point. -/
def Tracking.under (t : Tracking) : Point → Option Nat
  | .entry => t.underEntry
  | .stand k => t.underStand.get k
  | .exit => t.underExit.map Seg.id

/-- The record under a point. -/
def Tracking.segUnder (t : Tracking) (p : Point) : Option Seg := (t.under p).bind t.find?

/-! ### Trips (R114, R116, R118) -/

/-- R114: the source's priority is below the ceiling. -/
def State.eligible (s : State) (x : Source) : Bool := (s.trips.src.get x).priority < s.trips.ceiling

/-- The more urgent of two sources, the first on a tie (R116). -/
def moreUrgent (s : State) (best : Option Source) (x : Source) : Option Source :=
  match best with
  | none => some x
  | some b => if (s.trips.src.get x).priority < (s.trips.src.get b).priority then some x else some b

/-- R116, step 1: the most urgent PENDING and eligible source. -/
def mostUrgent (s : State) : Option Source :=
  (Source.all.filter fun x => (s.trips.src.get x).st == .pending && s.eligible x).foldl (moreUrgent s) none

/-- R116, step 2: whether a source may be taken above the top of the stack. -/
def qualifies (s : State) (x : Source) : Bool :=
  match s.trips.stack with
  | [] => true
  | top :: _ => (s.trips.src.get x).priority < (s.trips.src.get top).priority

/-- R116: the source TAKE_TRIP would select. -/
def selected (s : State) : Option Source := (mostUrgent s).filter (qualifies s)

/-- R133: some source whose action is STOP is acted. -/
def stopActed (s : State) : Bool :=
  Source.all.any fun x => (s.trips.src.get x).action == .stop && (s.trips.src.get x).acted

/-- R110: the derived condition of EXIT_GAUGE. -/
def Trips.exitGaugeCond (t : Trips) : Bool :=
  (t.inputs.chan.exit == .stale || t.inputs.chan.exit == .fault) &&
    (t.inputs.exitKind == some .head || t.inputs.exitKind == some .body)

/-- R110: the derived condition of ENTRY_GAUGE. -/
def Trips.entryGaugeCond (t : Trips) : Bool :=
  (t.inputs.chan.entry == .stale || t.inputs.chan.entry == .fault) && t.inputs.strip

/-- R110: the derived condition of CHANNEL_FAULT. -/
def Trips.channelFaultCond (t : Trips) : Bool :=
  (t.inputs.chan.force.toList ++ t.inputs.chan.position.toList).any fun c => c == .fault

end Sys2Proof.Machine
end

