-- ==== Sys2Proof/Machine/Ops.lean ====
section
/-! DEFINITION. The shared operations: updates of one block's entry, the report queue and reply list with the transmitter,
marks and closings in segment records, and the AGC derivation. -/
namespace Sys2Proof.Machine

/-! ### One entry of one block -/

/-- Replaces one stand's engine. -/
def setEngine (k : Stand) (e : Engine) (s : State) : State := { s with eng := s.eng.set k e }

/-- Replaces one stand's gauge control items. -/
def setAgc (k : Stand) (g : AgcStand) (s : State) : State :=
  { s with gauge := { s.gauge with stands := s.gauge.stands.set k g } }

/-- Replaces one source record. -/
def setSource (x : Source) (r : SourceRec) (s : State) : State :=
  { s with trips := { s.trips with src := s.trips.src.set x r } }

/-- Replaces one channel record. -/
def setChannel (c : Channel) (r : ChannelRec) (s : State) : State :=
  { s with chan := { s.chan with recs := s.chan.recs.set c r } }

/-- Replaces one stand's action set. -/
def setActions (k : Stand) (es : List Entry) (s : State) : State :=
  { s with ilk := { s.ilk with sets := s.ilk.sets.set k es } }

/-- Replaces the tracking unit's state. -/
def setTrk (t : Tracking) (s : State) : State := { s with trk := t }

/-- Replaces the link controller's state. -/
def setLink (l : Link) (s : State) : State := { s with link := l }

/-- Replaces the schedule store's state. -/
def setSched (d : SchedStore) (s : State) : State := { s with sched := d }

/-- Replaces the slot table. -/
def setSlots (t : PerTag (Option Stand)) (s : State) : State := { s with slots := t }

/-- R108: records a source's live condition and does nothing else. -/
def setLive (x : Source) (b : Bool) (s : State) : State := setSource x { s.trips.src.get x with live := b } s

/-! ### The transmitter (R153, R164) -/

/-- The transmitter begins the oldest reply, which leaves the reply list now and so frees its place (DESIGN CHOICE, log 18: R163 says
so of reports, R148 and R153 leave it open for replies). -/
def Link.beginReply (l : Link) (r : Reply) (rest : List Reply) : Link :=
  { l with replies := rest, sending := some r.frame, lastSent := .reply }

/-- R164, R169: the transmitter begins the oldest report: it is given the lost mark, which is then cleared. -/
def Link.beginReport (l : Link) (r : Report) (rest : List Report) : Link :=
  { l with reports := rest, sending := some (r.frame l.lost), lost := false, lastSent := .report }

/-- R153: the transmitter chooses between two kinds that wait: the report at the first such choice since the reset, and otherwise the
kind it did not send last. -/
def Link.prefersReport (l : Link) : Bool := l.firstChoice || l.lastSent == .reply

/-- R153: the transmitter, free, chooses the next frame: the only kind that waits, or the one of the two it prefers. -/
def Link.next (l : Link) : Link :=
  match l.replies, l.reports with
  | [], [] => { l with sending := none }
  | r :: rs, [] => l.beginReply r rs
  | [], q :: qs => l.beginReport q qs
  | r :: rs, q :: qs =>
    let chosen := { l with firstChoice := false }
    if l.prefersReport then chosen.beginReport q qs else chosen.beginReply r rs

/-- R153: an idle transmitter begins a frame as soon as one waits. -/
def Link.pump (l : Link) : Link := if l.sending.isSome then l else l.next

/-! ### The report queue (R163) -/

/-- The queue without its oldest report that is not a TRIP_RAISED; none if there is no such report. -/
def evictOldest : List Report → Option (List Report)
  | [] => none
  | r :: rs => if r.isTrip then (evictOldest rs).map (r :: ·) else some rs

/-- R163: a report is offered to the queue. -/
def Link.offer (l : Link) (r : Report) : Link :=
  if l.reports.length < Config.reportQueueSize then { l with reports := l.reports ++ [r] }
  else if r.isTrip then
    match evictOldest l.reports with
    | some rest => { l with reports := rest ++ [r], lost := true }
    | none => { l with lost := true }
  else { l with lost := true }

/-- A block queues a report. -/
def report (r : Report) (s : State) : State := setLink (s.link.offer r).pump s

/-- R153: a reply joins the back of the reply list. -/
def addReply (r : Reply) (s : State) : State :=
  setLink (Link.pump { s.link with replies := s.link.replies ++ [r] }) s

/-! ### Segment records -/

/-- Changes the record in use with an id. -/
def Tracking.mapSeg (t : Tracking) (id : Nat) (f : Seg → Seg) : Tracking :=
  let at_ (g : Seg) : Seg := if g.id = id then f g else g
  { t with
    queues := .ofFn fun k => (t.queues.get k).map fun q => { q with seg := at_ q.seg }
    underExit := t.underExit.map at_ }

/-- R46: the record with an id is marked OFF_GAUGE. -/
def markOffGauge (id : Nat) (s : State) : State := setTrk (s.trk.mapSeg id fun g => { g with offGauge := true }) s

/-- R46, R131: the record under a stand is marked OFF_GAUGE, if there is one. -/
def markUnderStand (k : Stand) (s : State) : State :=
  match s.trk.underStand.get k with
  | some id => markOffGauge id s
  | none => s

/-- R24: every reference from a point to a record goes as it is freed. -/
def Tracking.dropRefs (t : Tracking) (id : Nat) : Tracking :=
  let keep (r : Option Nat) : Option Nat := if r = some id then none else r
  { t with underEntry := keep t.underEntry, underStand := .ofFn fun k => keep (t.underStand.get k) }

/-- R41: the deviation an accumulator closes to; absent if it took no sample. -/
def Acc.mean (a : Acc) : Option Int :=
  if a.count = 0 then none else some (clamp (-5000) 5000 (truncDiv a.sum a.count))

/-- R41: point `p`'s accumulator is closed into the record previously under the point, and cleared. -/
def Tracking.closeAcc (t : Tracking) (p : Point) : Tracking :=
  let closed :=
    match t.under p, (t.acc.get p).mean with
    | some id, some d => t.mapSeg id fun g => { g with dev := g.dev.set p (some d) }
    | _, _ => t
  { closed with acc := closed.acc.set p { sum := 0, count := 0 } }

/-- R38: a sample is taken by an accumulator, unless its count stands at 65,535. -/
def Acc.take (a : Acc) (x : Int) : Acc :=
  if a.count < Config.countMax then { sum := a.sum + x, count := a.count + 1 } else a

/-- A sample for point `p`'s accumulator. -/
def accumulate (p : Point) (x : Int) (s : State) : State :=
  setTrk { s.trk with acc := s.trk.acc.set p ((s.trk.acc.get p).take x) } s

/-! ### Coil records -/

/-- Changes the coil record with a key. -/
def mapCoil (key : Nat) (f : Coil → Coil) (s : State) : State :=
  setSched { s.sched with coils := s.sched.coils.map fun c => if c.key = key then f c else c } s

/-- R53: the coil's HEAD has reached a point. -/
def setHeadProgress (key : Nat) (p : Point) : State → State := mapCoil key fun c => { c with head := c.head.set p true }

/-- R53: the coil's TAIL has reached a point. -/
def setTailProgress (key : Nat) (p : Point) : State → State := mapCoil key fun c => { c with tail := c.tail.set p true }

/-! ### Gauge control -/

/-- R72: a stand's AGC state is derived anew. -/
def deriveAgc (k : Stand) (s : State) : State := setAgc k { s.gauge.stands.get k with st := agcStateOf s k } s

/-- R118: ATTN is evaluated: asserted while TAKE_TRIP would select a source. -/
def evalAttn (s : State) : State := setLink { s.link with attn := (selected s).isSome } s

end Sys2Proof.Machine
end

