-- ==== Sys2Proof/Machine/Engines.lean ====
section
/-! DEFINITION. The move engines (05_gap_moves.md): starting, ramping, finishing, taking, holding and retracting moves. -/
namespace Sys2Proof.Machine

/-- R85: the engine's reference takes a value, which is sent on the stand reference port if it is a change. -/
def setRef (k : Stand) (v : Int) (s : State) : State :=
  let e := s.eng.get k
  if v = e.ref then s
  else
    { setEngine k { e with ref := v } s with
      port := s.port.set k { last := some v, sends := (s.port.get k).sends + 1 } }

/-- R88: a tag's slot becomes FREE. -/
def freeSlot (tag : Option Tag) (s : State) : State :=
  match tag with
  | some t => setSlots (s.slots.set t none) s
  | none => s

/-- R91: the MOVE_DONE report of a move, with the stand's present ref and position. -/
def reportMove (k : Stand) (m : Move) (status : MoveStatus) (s : State) : State :=
  report (.moveDone k m.tag m.origin status m.clamped (s.eng.get k).ref (s.measured (.position k))) s

/-- R103: the position-error count becomes 0, and the POSITION source's condition false. -/
def clearPosErr (k : Stand) (s : State) : State :=
  setLive (.position k) false (setEngine k { s.eng.get k with posErr := 0 } s)

/-- R89: a move becomes the active move: RAMPING with its count of updates, or SETTLING when that is 0. -/
def startMove (k : Stand) (m : Move) (s : State) : State :=
  let e := s.eng.get k
  let n := updatesFor (m.target - e.ref).natAbs m.step
  if n = 0 then
    setEngine k { e with act := .settling { move := m, remaining := 0 }, settleLeft := some e.cfg.settleTime } s
  else setEngine k { e with act := .ramping { move := m, remaining := n }, settleLeft := none } s

/-- R87: the front pending move starts if the engine is IDLE and nothing blocks the stand; starting clears RETRACTED
(R89). -/
def checkPending (k : Stand) (s : State) : State :=
  let e := s.eng.get k
  match e.pending with
  | [] => s
  | m :: rest =>
    if e.act.isIdle && !s.blocked k then startMove k m (setEngine k { e with pending := rest, retracted := false } s)
    else s

/-- The engine becomes IDLE with no active move: the settle timer stops and the position-error count is 0 (R91, R93). -/
def dropActive (k : Stand) (s : State) : State :=
  clearPosErr k (setEngine k { s.eng.get k with act := .idle, settleLeft := none } s)

/-- R91: the active move `m` is finished with a status, in the rule's five steps. -/
def finishMove (k : Stand) (m : Move) (status : MoveStatus) (s : State) : State :=
  let e := s.eng.get k
  let s := setEngine k { e with act := .idle, settleLeft := none, retracted := e.retracted || m.origin == .retract } s
  let s := freeSlot m.tag s
  let s := if m.origin = .setup ∨ m.origin = .link then reportMove k m status s else s
  checkPending k (clearPosErr k s)

/-- R93, steps 1 and 2: RETRACTED is cleared and a FEEDBACK move dropped. -/
def makeWay (k : Stand) (s : State) : State :=
  let s := setEngine k { s.eng.get k with retracted := false } s
  if (s.eng.get k).act.isOf .feedback then dropActive k s else s

/-- R93, step 3: the new move starts at once. -/
def startsAtOnce (k : Stand) (s : State) : Bool :=
  (s.eng.get k).act.isIdle && (s.eng.get k).pending.isEmpty && !s.blocked k

/-- R93: a SETUP or LINK move is taken: it starts or joins the pending queue. -/
def takeMove (k : Stand) (m : Move) (s : State) : State :=
  let s := makeWay k s
  let s :=
    if startsAtOnce k s then startMove k m s
    else checkPending k (setEngine k { s.eng.get k with pending := (s.eng.get k).pending ++ [m] } s)
  deriveAgc k s

/-- R60, R95: a setup move is handed to the engine, which refuses or takes it. -/
def issueSetup (k : Stand) (setGap : Int) (s : State) : State :=
  let e := s.eng.get k
  let target := clamp e.cfg.gapMin e.cfg.gapMax setGap
  let m : Move :=
    { origin := .setup, target := target, step := e.cfg.setRate, tag := none, clamped := target != setGap }
  if s.retracting k then reportMove k m .refusedTrip s
  else if Config.pendingSize ≤ e.pending.length then reportMove k m .queueFull s
  else takeMove k m s

/-- R96: a FEEDBACK correction starts, combines with the FEEDBACK move in flight, or is discarded. -/
def takeFeedback (k : Stand) (target : Int) (s : State) : State :=
  let e := s.eng.get k
  let combine (a : Active) : State := startMove k { a.move with target := target } s
  if e.retracted then s
  else
    match e.act with
    | .idle =>
      if e.pending.isEmpty && !s.blocked k then
        startMove k { origin := .feedback, target := target, step := e.cfg.agcRate, tag := none, clamped := false } s
      else s
    | .ramping a | .settling a => if a.move.origin = .feedback then combine a else s
    | .held _ _ => s

/-- R97: the active move is held where it is. A RETRACT move is not held. -/
def holdActive (k : Stand) (s : State) : State :=
  let e := s.eng.get k
  if e.act.isOf .retract then s
  else
    match e.act with
    | .ramping a => setEngine k { e with act := .held a .ramping, settleLeft := none } s
    | .settling a => setEngine k { e with act := .held a .settling, settleLeft := none } s
    | .idle | .held _ _ => s

/-- R98: a held move returns to the state it was held from. -/
def resumeActive (k : Stand) (s : State) : State :=
  let e := s.eng.get k
  match e.act with
  | .held a .ramping => setEngine k { e with act := .ramping a } s
  | .held a .settling => setEngine k { e with act := .settling a, settleLeft := some e.cfg.settleTime } s
  | .idle | .ramping _ | .settling _ => s

/-- R101, step 2: the pending queue is flushed, oldest first, each slot freed before its report. -/
def flushPending (k : Stand) : List Move → State → State
  | [], s => s
  | m :: rest, s =>
    flushPending k rest
      (reportMove k m .abortedTrip (freeSlot m.tag (setEngine k { s.eng.get k with pending := rest } s)))

/-- R101, steps 1 and 3: the active move ends unless it is a RETRACT move. -/
def abortActive (k : Stand) (s : State) : State :=
  match (s.eng.get k).act.active? with
  | none => s
  | some a =>
    match a.move.origin with
    | .setup | .link => finishMove k a.move .abortedTrip s
    | .feedback => dropActive k s
    | .retract => s

/-- R101, step 4: a RETRACT move to GAP_MAX starts, unless one is active. -/
def startRetract (k : Stand) (s : State) : State :=
  let e := s.eng.get k
  if e.act.isOf .retract then s
  else
    startMove k
      { origin := .retract, target := e.cfg.gapMax, step := e.cfg.retractRate, tag := none, clamped := false } s

/-- R101: the retract procedure. A FEEDBACK move is dropped without a report, so that its place before or after the flush
does not show. -/
def retract (k : Stand) (s : State) : State :=
  let s := abortActive k s
  let s := flushPending k (s.eng.get k).pending s
  deriveAgc k (startRetract k s)

/-- R89: an update of a ramping move: the count falls by 1 and ref moves one step, or lands on the target as the count
reaches 0 and the engine enters SETTLING. -/
def update (k : Stand) (s : State) : State :=
  let e := s.eng.get k
  match e.act with
  | .ramping a =>
    if 1 < a.remaining then
      let v := if e.ref < a.move.target then e.ref + a.move.step else e.ref - a.move.step
      setRef k v (setEngine k { e with act := .ramping { a with remaining := a.remaining - 1 } } s)
    else
      setRef k a.move.target
        (setEngine k { e with act := .settling { a with remaining := 0 }, settleLeft := some e.cfg.settleTime } s)
  | .idle | .settling _ | .held _ _ => s

/-- R89: the update that brings a ramping move's count to 0, which is one of a move with one update left. -/
def landRamp (k : Stand) (s : State) : State :=
  let e := s.eng.get k
  match e.act with
  | .ramping a => if a.remaining ≤ 1 then update k s else s
  | .idle | .settling _ | .held _ _ => s

/-- R90: the settle timer of a settling move runs out. -/
def settleTimeout (k : Stand) (s : State) : State :=
  let e := s.eng.get k
  match e.act, e.settleLeft with
  | .settling a, some _ => deriveAgc k (finishMove k a.move .settleTimeout s)
  | _, _ => s

/-- R90: a position value in SETTLING, within IN_POS of the target, ends the move with REACHED. -/
def settleTest (k : Stand) (v : Int) (s : State) : State :=
  let e := s.eng.get k
  match e.act with
  | .settling a => if (v - a.move.target).natAbs ≤ e.cfg.inPos then deriveAgc k (finishMove k a.move .reached s) else s
  | .idle | .ramping _ | .held _ _ => s

/-- R103: the position-error count after a position value taken while the engine is not IDLE. -/
def nextPosErr (e : Engine) (v : Int) : Nat :=
  if e.cfg.posErrLimit < (v - e.ref).natAbs then
    if e.posErr = e.cfg.posErrCount then e.posErr else e.posErr + 1
  else 0

end Sys2Proof.Machine
end

