-- ==== Sys2Proof/Machine/Trips.lean ====
section
/-! DEFINITION. The trip controller (06_the_trip_controller.md) and the carrying out of its actions by the interlock unit
(07_interlocks_stop_line_and_lock.md, 7.1). -/
namespace Sys2Proof.Machine

/-! ### Action sets -/

/-- R129: a source's action is applied at one stand: the entry, then OFF_GAUGE and the retract procedure for a first
retract-type entry, the hold for a hold entry without one, and the AGC state when the set becomes blocking. -/
def applyAt (x : Source) (a : Action) (s : State) (k : Stand) : State :=
  let hadRetract := s.retracting k
  let hadBlocking := s.blocked k
  let s := setActions k (s.ilk.sets.get k ++ [{ source := x, action := a }]) s
  let s := if a.isRetractType && !hadRetract then retract k (markUnderStand k s) else s
  let s := if a = .hold ∧ !s.retracting k then holdActive k s else s
  if a.isBlocking && !hadBlocking then deriveAgc k s else s

/-- R129, R132: a source's action is applied: STOP asserts the line, then the stands of the scope in order. -/
def applyAction (x : Source) (a : Action) (s : State) : State :=
  let s := if a = .stop then { s with ilk := { s.ilk with stop := true } } else s
  (scope x).foldl (applyAt x a) s

/-- R130: a source's entry leaves one stand's set; an unblocked stand checks its pending queue and its AGC state. -/
def releaseAt (x : Source) (s : State) (k : Stand) : State :=
  let s := setActions k ((s.ilk.sets.get k).filter fun e => e.source != x) s
  if s.blocked k then s else deriveAgc k (checkPending k s)

/-- R130: a source's action is released in every stand of its scope, in order. -/
def releaseAction (x : Source) (s : State) : State := (scope x).foldl (releaseAt x) s

/-! ### Latching -/

/-- R114: a PENDING source's action is applied and its acted mark set. -/
def act (x : Source) (s : State) : State :=
  let r := s.trips.src.get x
  applyAction x r.action (setSource x { r with acted := true } s)

/-- R115: the TRIP_RAISED report of a source as it stands. -/
def reportTrip (x : Source) (s : State) : State :=
  let r := s.trips.src.get x
  report (.tripRaised x r.priority r.action (s.eligible x) r.acted) s

/-- R111, R112, R114, R115, R118: a source latches: PENDING, acted if eligible, reported, ATTN evaluated. -/
def latch (x : Source) (s : State) : State :=
  let s := setSource x { s.trips.src.get x with st := .pending } s
  let s := if s.eligible x then act x s else s
  evalAttn (reportTrip x s)

/-- R111, R112, R113: an edge, or a condition that has become true, reaches a source. -/
def edge (x : Source) (s : State) : State :=
  let r := s.trips.src.get x
  if r.masked then s
  else
    match r.st, r.mode with
    | .quiet, _ => latch x s
    | .inService, .edge => setSource x { r with rep := true } s
    | .pending, _ | .inService, .level => s

/-- R109, R111, R112: the owning block hands on a level condition; a change is recorded, and a change to true latches. -/
def condition (x : Source) (b : Bool) (s : State) : State :=
  if (s.trips.src.get x).live = b then s
  else if b then edge x (setLive x b s)
  else setLive x b s

/-- R112: the latching check of an unmasked LEVEL source that is QUIET. -/
def latchCheck (s : State) (x : Source) : State :=
  let r := s.trips.src.get x
  if !r.masked && r.mode == .level && r.st == .quiet && r.live then latch x s else s

/-- R110: the conditions of sources 13 to 15 are evaluated again from the inputs kept for them. -/
def derivedConditions (s : State) : State :=
  let s := condition .exitGauge s.trips.exitGaugeCond s
  let s := condition .entryGauge s.trips.entryGaugeCond s
  condition .channelFault s.trips.channelFaultCond s

/-- R110: a channel's state is handed to the trip controller. -/
def tripChannel (c : Channel) (st : ChanState) (s : State) : State :=
  derivedConditions
    { s with trips := { s.trips with inputs := { s.trips.inputs with chan := s.trips.inputs.chan.set c st } } }

/-- R110: the kind of the record under point 7 is handed to the trip controller. -/
def tripExitKind (kind : Option Kind) (s : State) : State :=
  derivedConditions { s with trips := { s.trips with inputs := { s.trips.inputs with exitKind := kind } } }

/-- R28, R110: the debounced strip-present state is handed to the trip controller. -/
def tripStrip (present : Bool) (s : State) : State :=
  derivedConditions { s with trips := { s.trips with inputs := { s.trips.inputs with strip := present } } }

/-! ### Taking and ending -/

/-- R116: a selected source goes onto the in-service stack. -/
def take (x : Source) (s : State) : State :=
  let s := setSource x { s.trips.src.get x with st := .inService } s
  evalAttn { s with trips := { s.trips with stack := x :: s.trips.stack } }

/-- R121: whether an ended source is raised again. -/
def SourceRec.raisedAgain (r : SourceRec) : Bool :=
  match r.mode with
  | .edge => r.rep
  | .level => r.live

/-- R121: a source leaves the stack and is raised again, or goes quiet with its action released. -/
def endService (x : Source) (s : State) : State :=
  let r := s.trips.src.get x
  let s := { s with trips := { s.trips with stack := s.trips.stack.filter fun y => y != x } }
  let s :=
    if r.raisedAgain then reportTrip x (setSource x { r with st := .pending, rep := false } s)
    else releaseAction x (setSource x { r with st := .quiet, rep := false, acted := false } s)
  evalAttn s

/-- R124: under a new ceiling, a PENDING source that is eligible and not acted is acted. -/
def actIfEligible (s : State) (x : Source) : State :=
  let r := s.trips.src.get x
  if r.st == .pending && s.eligible x && !r.acted then act x s else s

/-- R124: the sources a new ceiling makes act, in order of number. -/
def actedByCeiling (s : State) : List Source :=
  Source.all.filter fun x =>
    (s.trips.src.get x).st == .pending && s.eligible x && !(s.trips.src.get x).acted

end Sys2Proof.Machine
end

