-- ==== Sys2Proof/Machine/Gauging.lean ====
section
/-! DEFINITION. Gauge control arithmetic (04_gauge_control_arithmetic.md): the gauge error, the correction, the life of
h_ref and the stand 6 monitor. -/
namespace Sys2Proof.Machine

/-- R74, step 1: the stretch of a stand under a force. -/
def stretch (c : StandCfg) (force : Int) : Int := roundDiv ((force - c.f0) * 1000) c.m

/-- R74, step 2: the gaugemeter thickness. -/
def hGm (c : StandCfg) (force position : Int) : Int := clamp 0 30000 (position + stretch c force)

/-- R74, step 3: the aim, trimmed at stand 6. -/
def hAim (s : State) (k : Stand) (href : Int) : Int := clamp 0 30000 (if k = .s6 then href - s.gauge.m else href)

/-- R75, step 5: the error outside the deadband. -/
def deadband (db e : Int) : Int := if e.natAbs ≤ db then 0 else if db < e then e - db else e + db

/-- R75, step 6: the feedback part. -/
def deltaFb (m q gFb eEff : Int) : Int := -truncDiv (eEff * (m + q) * gFb) (m * 256)

/-- R76, step 7: the feedforward part. -/
def deltaFf (m q gFf dH : Int) : Int := -truncDiv (dH * q * gFf) (m * 256)

/-- R77, step 9: a target held within STEP_MAX of the reference, and whether the limit bound. -/
def stepLimit (ref stepMax raw : Int) : Int × Bool :=
  if stepMax < raw - ref then (ref + stepMax, true)
  else if stepMax < ref - raw then (ref - stepMax, true)
  else (raw, false)

/-- R79: Q, G_fb and G_ff of the coil at a stand; those of an unscheduled coil where it has no schedule. -/
def gains (s : State) (k : Stand) : Int × Int × Int :=
  match (s.coilAt (.stand k)).bind Coil.schedule with
  | some d => ((d.stands.get k).q, (d.stands.get k).gFb, (d.stands.get k).gFf)
  | none => (0, 192, 0)

/-- R76: the deviation the strip under a stand carries from the point before; 0 when there is none. -/
def carriedDeviation (s : State) (k : Stand) : Int :=
  ((s.trk.segUnder (.stand k)).bind fun g => g.dev.get k.pointBefore).getD 0

/-- R74: the gauge error e of a stand, from a force, a position and its reference. -/
def gaugeError (s : State) (k : Stand) (href force position : Int) : Int :=
  hGm (s.eng.get k).cfg force position - hAim s k href

/-- A correction's result: the target of R78 with the two flags. -/
structure Correction where
  target : Int
  stepLimited : Bool
  atLimit : Bool
deriving DecidableEq, Repr

/-- R75 to R78, steps 5 to 11: the correction for a gauge error. -/
def correction (s : State) (k : Stand) (e position : Int) : Correction :=
  let cfg := (s.eng.get k).cfg
  let (q, gFb, gFf) := gains s k
  let raw := position + deltaFb cfg.m q gFb (deadband s.gauge.db e) + deltaFf cfg.m q gFf (carriedDeviation s k)
  let (limited, bound) := stepLimit (s.eng.get k).ref cfg.stepMax raw
  let target := clamp cfg.gapMin cfg.gapMax limited
  { target := target, stepLimited := bound, atLimit := target != limited }

/-- R73: the correction event of an ACTIVE stand. -/
def correct (k : Stand) (e position : Int) (s : State) : State :=
  let c := correction s k e position
  takeFeedback k c.target
    (setAgc k { s.gauge.stands.get k with stepLimited := c.stepLimited, atLimit := c.atLimit } s)

/-- R39: a stand's gauge error is added to its accumulator while a coil is at the stand. -/
def takeError (k : Stand) (e : Int) (s : State) : State :=
  if (s.coilAt (.stand k)).isSome then accumulate (.stand k) e s else s

/-- R73: a new filtered force value of a stand. -/
def forceValue (k : Stand) (force : Int) (s : State) : State :=
  match (s.gauge.stands.get k).href, s.measured (.position k) with
  | some href, some position =>
    let e := gaugeError s k href force position
    let s := takeError k e s
    if (s.gauge.stands.get k).st = .active then correct k e position s else s
  | _, _ => s

/-! ### The life of h_ref -/

/-- R68: a HEAD arrives at a stand. -/
def headAtGauge (k : Stand) (g : Seg) (s : State) : State :=
  let a := s.gauge.stands.get k
  let href :=
    if a.mode = .absolute then
      match (s.coilOf g.coilKey).bind Coil.schedule with
      | some d => some (d.stands.get k).h
      | none => a.href
    else a.href
  deriveAgc k (setAgc k { a with lockonCount := 0, href := href } s)

/-- R69: the h_ref a lock-on takes at a BODY's arrival; none where the attempt is not made or fails. -/
def lockOnRef (k : Stand) (g : Seg) (count : Nat) (s : State) : Option Int :=
  let a := s.gauge.stands.get k
  if a.mode = .lockon ∧ a.href = none ∧ s.gauge.lockonSeg ≤ count ∧ s.chan.biteIn.get k ∧ !g.offGauge then
    match s.measured (.force k), s.measured (.position k) with
    | some force, some position => some (hGm (s.eng.get k).cfg force position)
    | _, _ => none
  else none

/-- R69: a BODY arrives at a stand. -/
def bodyAtGauge (k : Stand) (g : Seg) (s : State) : State :=
  let a := s.gauge.stands.get k
  let count := satAdd a.lockonCount 1
  match lockOnRef k g count s with
  | some h =>
    let s := setTrk (s.trk.mapSeg g.id fun r => { r with lockonAt := r.lockonAt.set k true }) s
    deriveAgc k (setAgc k { a with lockonCount := count, href := some h } s)
  | none => setAgc k { a with lockonCount := count } s

/-- R67, R70, R83: a stand's reference and flags are cleared, and m with stand 6's reference. -/
def clearReference (k : Stand) (s : State) : State :=
  let s := setAgc k { s.gauge.stands.get k with href := none, stepLimited := false, atLimit := false } s
  if k = .s6 then { s with gauge := { s.gauge with m := 0 } } else s

/-- R70: a TAIL arrives at a stand. -/
def tailAtGauge (k : Stand) (s : State) : State :=
  let s := clearReference k s
  deriveAgc k (setAgc k { s.gauge.stands.get k with lockonCount := 0 } s)

/-- R68, R69, R70: an arrival is announced to gauge control. -/
def arrivalAtGauge (k : Stand) (g : Seg) (s : State) : State :=
  match g.kind with
  | .head => headAtGauge k g s
  | .body => bodyAtGauge k g s
  | .tail => tailAtGauge k s

/-! ### The stand 6 monitor -/

/-- R80: the coil at point 7 is also the coil at stand 6. -/
def sameCoilAtExit (s : State) : Bool :=
  match s.coilAt .exit, s.coilAt (.stand .s6) with
  | some a, some b => a.key == b.key
  | _, _ => false

/-- R80, R81: the monitor is offered a completed record. -/
def monitor (done : Seg) (s : State) : State :=
  match done.dev.exit with
  | none => s
  | some d =>
    if !done.offGauge && (s.gauge.stands.get .s6).st == .active && sameCoilAtExit s then
      let m := s.gauge.m + truncDiv (d * s.gauge.gMon) 256
      let s := { s with gauge := { s.gauge with m := clamp (-2000) 2000 m } }
      if clamp (-2000) 2000 m = m then s else edge .monitorLimit s
    else s

end Sys2Proof.Machine
end

