-- ==== Sys2Proof/Machine/Scheduling.lean ====
section
/-! DEFINITION. The schedule store (03_coils_and_pass_schedules.md): binding a schedule to an admitted coil and issuing
setup moves. -/
namespace Sys2Proof.Machine

/-- R54, R55: the number of the coil being admitted: its schedule's, or the last coil number plus 1, 65,535 followed by
0. -/
def nextCoilNumber (d : SchedStore) : Nat :=
  match d.queue with
  | sch :: _ => sch.coil
  | [] => (d.lastCoil + 1) % 65536

/-- R29, R54: the coil record of an admission. -/
def newCoil (d : SchedStore) : Coil where
  key := d.nextKey
  number := nextCoilNumber d
  schedule := d.queue.head?
  head := .fill false
  tail := .fill false
  setup := .fill false
  segCount := 0
  offCount := 0

/-- R54, R55: a coil is admitted: its record joins the table and the oldest schedule, if any, leaves the queue. -/
def admitCoil (s : State) : State :=
  let d := s.sched
  setSched
    { queue := d.queue.tail, coils := d.coils ++ [newCoil d], lastCoil := nextCoilNumber d, nextKey := d.nextKey + 1 } s

/-- R58, R59: the coil's setup done mark at a stand is set and its setup move issued there. -/
def setupAt (key : Nat) (sch : Schedule) (s : State) (k : Stand) : State :=
  issueSetup k (sch.stands.get k).gap (mapCoil key (fun c => { c with setup := c.setup.set k true }) s)

/-- R58: a coil's HEAD birth is announced: setups at every stand that all earlier coils have left. -/
def setupsAtBirth (key : Nat) (s : State) : State :=
  let earlier := s.sched.coils.takeWhile fun c => c.key != key
  match (s.coilOf key).bind Coil.schedule with
  | none => s
  | some sch =>
    (Stand.all.filter fun k => earlier.all fun c => c.tail.get (.stand k)).foldl (setupAt key sch) s

/-- R59: a TAIL's arrival at a stand is announced: the setup of the coil admitted next, if it is scheduled. -/
def setupAtTail (k : Stand) (tailKey : Nat) (s : State) : State :=
  match (s.sched.coils.dropWhile fun c => c.key != tailKey).tail.head? with
  | some c =>
    match c.schedule with
    | some sch => setupAt c.key sch s k
    | none => s
  | none => s

end Sys2Proof.Machine
end

