-- ==== Sys2Proof/Machine/Strip.lean ====
section
/-! DEFINITION. Length counting and strip tracking (02_length_counting_and_strip_tracking.md). -/
namespace Sys2Proof.Machine

/-! ### Births (R30) -/

/-- R30, step 1: the record under point 0, if it is a HEAD or BODY, is closed: d_0 and entry length; the accumulator is
cleared (step 2). -/
def closeAtEntry (t : Tracking) : Tracking :=
  match t.underEntry.bind t.find? with
  | some g =>
    if g.kind = .tail then { t with acc := t.acc.set .entry { sum := 0, count := 0 } }
    else (t.closeAcc .entry).mapSeg g.id fun r => { r with entryLen := some t.entryDist }
  | none => { t with acc := t.acc.set .entry { sum := 0, count := 0 } }

/-- R23: a new record. -/
def newSeg (id : Nat) (kind : Kind) (c : Coil) : Seg :=
  { id := id, kind := kind, coil := c.number, coilKey := c.key, entryLen := none, dev := .fill none, offGauge := false,
    lockonAt := .fill false }

/-- R30, steps 1 to 4: the record is born and joins span queue 0. -/
def bear (kind : Kind) (c : Coil) (t : Tracking) : Tracking :=
  let t := closeAtEntry t
  { t with
    nextId := (t.nextId + 1) % 4096
    queues := t.queues.set .entry
      (t.queues.entry ++ [{ seg := newSeg t.nextId kind c, dist := t.spanLen.entry }])
    underEntry := some t.nextId
    entryDist := 0
    poolFull := if kind = .head then t.poolFull else false }

/-- R30, step 5: the coil's segment count and progress. -/
def countBirth (kind : Kind) (c : Coil) : Coil :=
  match kind with
  | .head => { c with segCount := satAdd c.segCount 1, head := c.head.set .entry true }
  | .body => { c with segCount := satAdd c.segCount 1 }
  | .tail => { c with tail := c.tail.set .entry true }

/-- R30: a birth for the coil being admitted, which is the newest in the table. POOL_FULL's condition falls at a BODY or
TAIL birth (R31). -/
def birth (kind : Kind) (s : State) : State :=
  match s.sched.coils.getLast? with
  | none => s
  | some c =>
    let s := mapCoil c.key (countBirth kind) (setTrk (bear kind c s.trk) s)
    if kind = .head then setupsAtBirth c.key s else s

/-- R29: a strip-present rising. -/
def stripRises (s : State) : State :=
  if s.trk.entry ≠ .empty then s
  else if Config.coilTableSize ≤ s.sched.coils.length ∨ s.trk.free < 2 then
    edge .stripLost (setTrk { s.trk with entry := .rejected } s)
  else
    let s := birth .head (admitCoil s)
    setTrk { s.trk with entry := .admitted } s

/-- R32: a strip-present falling. -/
def stripFalls (s : State) : State :=
  match s.trk.entry with
  | .empty => s
  | .rejected => setTrk { s.trk with entry := .empty } s
  | .admitted =>
    let s := birth .tail s
    setTrk { s.trk with entry := .empty } s

/-- R31: a span-0 length event in ADMITTED: the entry distance grows, and a BODY birth is made or withheld. -/
def entryLength (d : Nat) (s : State) : State :=
  if s.trk.entry ≠ .admitted then s
  else
    let s := setTrk { s.trk with entryDist := satAdd s.trk.entryDist d } s
    if s.trk.entryDist < s.trk.segLen then s
    else if 4 < s.trk.free then birth .body s
    else if s.trk.poolFull then s
    else edge .poolFull (setTrk { s.trk with poolFull := true } s)

/-! ### Arrivals -/

/-- R42, R45: a watch started or stopped by an arrival made by a length event. -/
def startWatches (k : Stand) (kind : Kind) (s : State) : State :=
  match kind with
  | .head =>
    if !s.chan.biteIn.get k then
      setTrk { s.trk with headWatch := s.trk.headWatch.set k (some s.trk.headWindow) } s
    else if (s.trk.tailWatch.get k).isSome then
      edge .stripLost (setTrk { s.trk with tailWatch := s.trk.tailWatch.set k none } s)
    else s
  | .tail =>
    if s.chan.biteIn.get k then
      setTrk { s.trk with tailWatch := s.trk.tailWatch.set k (some s.trk.tailWindow) } s
    else s
  | .body => s

/-- R34: the distance a record enters the span after stand `k` with. -/
def enterDist (t : Tracking) (k : Stand) (overshoot : Int) : Int :=
  let own := max ((t.spanLen.after.get k : Int) - overshoot) 0
  match (t.queues.after.get k).getLast? with
  | some q => max own q.dist
  | none => own

/-- R34: a record joins the back of the span after stand `k`. -/
def enterSpan (k : Stand) (g : Seg) (overshoot : Int) (t : Tracking) : Tracking :=
  { t with
    queues := t.queues.set (.after k) (t.queues.after.get k ++ [{ seg := g, dist := enterDist t k overshoot }]) }

/-- R35, step 3: the coil's progress at a stand. -/
def markArrival (k : Stand) (g : Seg) : State → State :=
  match g.kind with
  | .head => setHeadProgress g.coilKey (.stand k)
  | .tail => setTailProgress g.coilKey (.stand k)
  | .body => id

/-- R35: the arrival of a record at a stand, after R34 has moved it into the next span. -/
def arriveAtStand (k : Stand) (g : Seg) (overshoot : Int) (byLength : Bool) (s : State) : State :=
  let t := (enterSpan k g overshoot s.trk).closeAcc (.stand k)
  let s := setTrk { t with underStand := t.underStand.set k (some g.id) } s
  let s := markArrival k g s
  let s := if s.blocked k then markOffGauge g.id s else s
  let s := if byLength then startWatches k g.kind s else s
  let s := arrivalAtGauge k ((s.trk.find? g.id).getD g) s
  if g.kind = .tail then setupAtTail k g.coilKey s else s

/-- R36, step 2: the record under point 7, its d_7 closed, is reported, counted if OFF_GAUGE, and freed. -/
def completeAtExit (s : State) : State :=
  let t := s.trk.closeAcc .exit
  match t.underExit with
  | none => setTrk t s
  | some g =>
    let s := report (.segment g) (setTrk t s)
    let s := if g.offGauge then mapCoil g.coilKey (fun c => { c with offCount := satAdd c.offCount 1 }) s else s
    setTrk ({ s.trk with underExit := none }.dropRefs g.id) s

/-- R36, R37: the record completed at an arrival at point 7, with its d_7. -/
def completedAtExit (s : State) : Option Seg := (s.trk.closeAcc .exit).underExit

/-- R36, step 4: a completed record is offered to the monitor. -/
def offerMonitor (done : Option Seg) (s : State) : State :=
  match done with
  | some g => monitor g s
  | none => s

/-- R37, R62: a coil's COIL_END is queued, with its tail progress at point 7 set, and its record removed. -/
def endCoil (key : Nat) (s : State) : State :=
  let s := setTailProgress key .exit s
  match s.coilOf key with
  | none => s
  | some c =>
    let s := report (.coilEnd c.number c.schedule.isSome c.segCount c.offCount) s
    setSched { s.sched with coils := s.sched.coils.filter fun d => d.key != key } s

/-- R36, R37: the arrival of a record at the exit gauge. -/
def arriveAtExit (g : Seg) (s : State) : State :=
  let done := completedAtExit s
  let s := completeAtExit s
  match g.kind with
  | .tail =>
    let s := setTrk (s.trk.dropRefs g.id) s
    tripExitKind none (offerMonitor done (endCoil g.coilKey s))
  | .head =>
    let s := setHeadProgress g.coilKey .exit (setTrk { s.trk with underExit := some g } s)
    tripExitKind (some .head) (offerMonitor done s)
  | .body =>
    let s := setTrk { s.trk with underExit := some g } s
    tripExitKind (some .body) (offerMonitor done s)

/-- A record that has left the front of span `k` arrives at point k+1. -/
def arrive (k : Span) (g : Seg) (overshoot : Int) (byLength : Bool) (s : State) : State :=
  match k.downstream with
  | .stand j => arriveAtStand j g overshoot byLength s
  | .entry | .exit => arriveAtExit g s

/-- The front record leaves span queue `k`. -/
def popFront (k : Span) (s : State) : State := setTrk { s.trk with queues := s.trk.queues.set k (s.trk.queues.get k).tail } s

/-- R33, step 4: while the front record of span `k` has a distance of 0 or below, it arrives. `n` bounds the number of
arrivals; the queue's length is enough, since an arrival adds nothing to its own span. -/
def arriveReached (k : Span) : Nat → State → State
  | 0, s => s
  | n + 1, s =>
    match s.trk.queues.get k with
    | [] => s
    | q :: _ => if q.dist ≤ 0 then arriveReached k n (arrive k q.seg (-q.dist) true (popFront k s)) else s

/-- R43, R44: the first `n` records of span `k` are forced to arrive, oldest first, with no overshoot and no watch. -/
def forceArrivals (k : Span) : Nat → State → State
  | 0, s => s
  | n + 1, s =>
    match s.trk.queues.get k with
    | [] => s
    | q :: _ => forceArrivals k n (arrive k q.seg 0 false (popFront k s))

/-! ### Length events (R21, R33) -/

/-- R42: a running head watch is exhausted: IDLE, and an edge of STRIP_LOST. -/
def headWatchRunsOut (k : Stand) (s : State) : State :=
  edge .stripLost (setTrk { s.trk with headWatch := s.trk.headWatch.set k none } s)

/-- R45: a running tail watch is exhausted. -/
def tailWatchRunsOut (k : Stand) (s : State) : State :=
  edge .stripLost (setTrk { s.trk with tailWatch := s.trk.tailWatch.set k none } s)

/-- R33, step 1: stand `k`'s head watch is reduced. -/
def reduceHeadWatch (k : Stand) (d : Nat) (s : State) : State :=
  match s.trk.headWatch.get k with
  | none => s
  | some r =>
    if r ≤ d then headWatchRunsOut k s
    else setTrk { s.trk with headWatch := s.trk.headWatch.set k (some (r - d)) } s

/-- R33, step 2: stand `k`'s tail watch is reduced. -/
def reduceTailWatch (k : Stand) (d : Nat) (s : State) : State :=
  match s.trk.tailWatch.get k with
  | none => s
  | some r =>
    if r ≤ d then tailWatchRunsOut k s
    else setTrk { s.trk with tailWatch := s.trk.tailWatch.set k (some (r - d)) } s

/-- R33, step 3: every record of span `k` comes nearer by `d`. -/
def reduceDistances (k : Span) (d : Nat) (s : State) : State :=
  setTrk
    { s.trk with
      queues := s.trk.queues.set k ((s.trk.queues.get k).map fun q => { q with dist := q.dist - d }) } s

/-- R33: a length event of `d` mm on span `k`. -/
def lengthEvent (k : Span) (d : Nat) (s : State) : State :=
  let s := match k.downstream with
    | .stand j => reduceHeadWatch j d s
    | .entry | .exit => s
  let s := match k with
    | .after j => reduceTailWatch j d s
    | .entry => s
  let s := reduceDistances k d s
  let s := arriveReached k (s.trk.queues.get k).length s
  match k with
  | .entry => entryLength d s
  | .after _ => s

/-- R21: counter `k` completes a count: the tally returns to 0, and the whole millimetres make a length event. -/
def completeCount (k : Span) (s : State) : State :=
  let c := s.counters.get k
  let total := c.rest + c.perCount
  let s := { s with counters := s.counters.set k { c with tally := 0, rest := total % 1000 } }
  if total / 1000 = 0 then s else lengthEvent k (total / 1000) s

/-- R21: a pulse on input `k`. -/
def takePulse (k : Span) (s : State) : State :=
  let c := s.counters.get k
  if c.tally + 1 < c.prescaler then { s with counters := s.counters.set k { c with tally := c.tally + 1 } }
  else completeCount k s

/-! ### Bites (R43, R44) -/

/-- The place of the first record that meets a test, and its distance. -/
def findQueued (p : Seg → Bool) : List Queued → Option (Nat × Int)
  | [] => none
  | q :: qs => if p q.seg then some (0, q.dist) else (findQueued p qs).map fun (n, d) => (n + 1, d)

/-- R43, R44: a record within its window is forced to arrive with those ahead of it; otherwise the strip is lost. -/
def forceOrLose (k : Stand) (p : Seg → Bool) (window : Nat) (s : State) : State :=
  match findQueued p (s.trk.queues.get k.spanBefore) with
  | some (n, d) => if d ≤ window then forceArrivals k.spanBefore (n + 1) s else edge .stripLost s
  | none => edge .stripLost s

/-- R42, R43: bite IN at a stand. -/
def biteInAt (k : Stand) (s : State) : State :=
  if (s.trk.headWatch.get k).isSome then setTrk { s.trk with headWatch := s.trk.headWatch.set k none } s
  else if (s.coilAt (.stand k)).isSome then s
  else forceOrLose k (fun g => g.kind == .head) s.trk.headWindow s

/-- R44, R45: bite OUT at a stand. -/
def biteOutAt (k : Stand) (s : State) : State :=
  let s := setTrk { s.trk with tailWatch := s.trk.tailWatch.set k none } s
  match s.coilAt (.stand k) with
  | none => s
  | some c => forceOrLose k (fun g => g.kind == .tail && g.coilKey == c.key) s.trk.tailWindow s

end Sys2Proof.Machine
end

