-- ==== Sys2Proof/Machine/Channels.lean ====
section
/-! DEFINITION. The channel unit (01_measurement_channels.md): what a sample does to its channel, and what a channel hands
on. -/
namespace Sys2Proof.Machine

/-- R4: a raw count's engineering value. -/
def engineering (r : ChannelRec) (raw : Word) : Int := truncDiv ((uint raw - r.zero) * r.span) 65536

/-- R7: the mean of a filter list; absent while it is empty. -/
def filterMean (xs : List Int) : Option Int := if xs = [] then none else some (truncDiv xs.sum xs.length)

/-- R6: a value joins the back of a filter list of at most `n`. -/
def pushFilter (n : Nat) (xs : List Int) (v : Int) : List Int := (xs ++ [v]).drop ((xs ++ [v]).length - n)

/-- R3: a rejected sample. -/
def ChannelRec.reject (r : ChannelRec) : ChannelRec :=
  let count := min 3 (r.invalidCount + 1)
  let r := { r with invalidCount := count, rangeCount := 0 }
  if count = 3 then { r with st := .fault, staleLeft := none } else r

/-- R5, R6: the value a sample is accepted with, and whether it was clamped. -/
def rangeChecked (r : ChannelRec) (v : Int) : Int × Bool := (clamp r.lo r.hi v, v < r.lo || r.hi < v)

/-- R6 to R9: the channel's state after an accepted value has been added, when it has not gone to FAULT. -/
def settledState (r : ChannelRec) (listLength : Nat) : ChanState :=
  if r.st = .valid ∨ r.n ≤ listLength then .valid else .settling

/-- R5, R6, R8, R9, R11: a sample whose converter-valid flag is true. -/
def ChannelRec.accept (r : ChannelRec) (v : Int) : ChannelRec :=
  let (value, clamped) := rangeChecked r v
  let rangeCount := if clamped then min 3 (r.rangeCount + 1) else 0
  let list := pushFilter r.n (if r.st = .stale then [] else r.filter) value
  let r' :=
    { r with
      filter := list, filtered := filterMean list, last := some value, invalidCount := 0, rangeCount := rangeCount,
      staleLeft := some r.staleTime }
  if rangeCount = 3 then { r' with st := .fault, staleLeft := none } else { r' with st := settledState r list.length }

/-- R2, R3, R5: what a sample makes of a channel's record. OFF and FAULT ignore it. -/
def ChannelRec.sampled (r : ChannelRec) (raw : Word) (valid : Bool) : ChannelRec :=
  match r.st with
  | .off | .fault => r
  | .settling | .valid | .stale => if valid then r.accept (engineering r raw) else r.reject

/-- R17: the report of a change from `old` to `new` made by a sample; none for a change that is not reported. -/
def sampleReport (c : Channel) (old new : ChannelRec) : Option Report :=
  if old.st = new.st then none
  else
    match new.st with
    | .valid => some (.channelState c .valid .samples)
    | .fault => some (.channelState c .fault (if new.invalidCount = 3 then .invalid else .outOfRange))
    | .off | .settling | .stale => none

/-- An optional report is queued. -/
def reportIf (r : Option Report) (s : State) : State :=
  match r with
  | some q => report q s
  | none => s

/-- R13: the bite state after a new filtered value. -/
def nextBite (c : StandCfg) (biteIn : Bool) (v : Int) : Bool := if biteIn then !(v < c.biteOff) else c.biteOn ≤ v

/-- R14: the overload condition after a new filtered value. -/
def nextOverload (c : StandCfg) (v : Int) : Bool := c.fMax < v

/-- R13, R14: stand `k`'s comparators are evaluated on a filtered value taken while VALID. -/
def evalComparators (k : Stand) (v : Int) (s : State) : State :=
  let cfg := (s.eng.get k).cfg
  { s with
    chan := { s.chan with
      biteIn := s.chan.biteIn.set k (nextBite cfg (s.chan.biteIn.get k) v)
      overload := s.chan.overload.set k (nextOverload cfg v) } }

/-- R12, item 1: a channel's change of state goes to gauge control and then to the trip controller. -/
def handState (c : Channel) (s : State) : State :=
  let s := match c with
    | .force k | .position k => deriveAgc k s
    | .entry | .exit => s
  tripChannel c (s.chan.recs.get c).st s

/-- R12, item 2: a change of bite goes to the tracking unit. -/
def handBite (k : Stand) (was : Bool) (s : State) : State :=
  if s.chan.biteIn.get k = was then s else if was then biteOutAt k s else biteInAt k s

/-- R103: a position value is counted against ref, and a change of the POSITION condition handed on. -/
def countPosErr (k : Stand) (v : Int) (s : State) : State :=
  let e := s.eng.get k
  if e.act.isIdle then s
  else
    let e := { e with posErr := nextPosErr e v }
    condition (.position k) e.posErrReached (setEngine k e s)

/-- R12, item 4: a position value goes to the engine: the count first, then the settle test (R103). -/
def positionValue (k : Stand) (v : Int) (s : State) : State := settleTest k v (countPosErr k v s)

/-- R38: an entry gauge value is taken by point 0's accumulator. -/
def entryValue (v : Int) (s : State) : State :=
  match s.trk.segUnder .entry with
  | some g =>
    match (s.coilOf g.coilKey).bind Coil.schedule with
    | some d => if g.kind = .tail then s else accumulate .entry (v - d.hNom) s
    | none => s
  | none => s

/-- R40: an exit gauge value is taken by point 7's accumulator. -/
def exitValue (v : Int) (s : State) : State :=
  match s.trk.underExit with
  | some g =>
    match (s.coilOf g.coilKey).bind Coil.schedule with
    | some d => if g.kind = .tail then s else accumulate .exit (v - (d.stands.get .s6).h) s
    | none => s
  | none => s

/-- R12, item 4: what a VALID channel hands on after a value it accepted: the filtered value of a force or position channel,
the accepted value of a gauge. -/
def handValue (c : Channel) (r : ChannelRec) (s : State) : State :=
  match c, r.filtered, r.last with
  | .force k, some v, _ => forceValue k v s
  | .position k, some v, _ => positionValue k v s
  | .entry, _, some v => entryValue v s
  | .exit, _, some v => exitValue v s
  | _, _, _ => s

/-- R12: what a channel hands on after an accepted value: bite, overload and the new value, in that order. -/
def handAccepted (c : Channel) (wasIn : Bool) (r : ChannelRec) (s : State) : State :=
  let s := match c with
    | .force k => condition (.overload k) (s.chan.overload.get k) (handBite k wasIn s)
    | .position _ | .entry | .exit => s
  handValue c r s

/-- The bite state of a force channel's stand. -/
def biteOf (c : Channel) (s : State) : Bool :=
  match c with
  | .force k => s.chan.biteIn.get k
  | .position _ | .entry | .exit => false

/-- R13, R14: the comparators of a force channel that is VALID after a value it accepted. -/
def compareOf (c : Channel) (r : ChannelRec) (s : State) : State :=
  match c, r.filtered with
  | .force k, some v => evalComparators k v s
  | _, _ => s

/-- R2 to R14: a sample for channel `c`: the channel's own work first (record, report, comparators), then what it hands
on (R12). -/
def takeSample (c : Channel) (raw : Word) (valid : Bool) (s : State) : State :=
  let old := s.chan.recs.get c
  let new := old.sampled raw valid
  let accepted := valid && new.st == .valid
  let wasIn := biteOf c s
  let s := reportIf (sampleReport c old new) (setChannel c new s)
  let s := if accepted then compareOf c new s else s
  let s := if old.st = new.st then s else handState c s
  if accepted then handAccepted c wasIn new s else s

/-- R10: a running stale timer runs out. -/
def staleExpires (c : Channel) (s : State) : State :=
  let r := s.chan.recs.get c
  match r.st, r.staleLeft with
  | .settling, some _ | .valid, some _ =>
    handState c (report (.channelState c .stale .stale) (setChannel c { r with st := .stale, staleLeft := none } s))
  | _, _ => s

/-- R16, R19: a channel's running state is cleared and it settles anew, or goes OFF. -/
def ChannelRec.cleared (r : ChannelRec) : ChannelRec :=
  { r with
    st := if r.enabled then .settling else .off
    filter := []
    filtered := none
    last := none
    invalidCount := 0
    rangeCount := 0
    staleLeft := if r.enabled then some r.staleTime else none }

end Sys2Proof.Machine
end

