-- ==== Sys2Proof/Machine/Resets.lean ====
section
/-! DEFINITION. Leaving a reset (R141, R142), the restart (R140), and a millisecond without an event (log 2). -/
namespace Sys2Proof.Machine

/-- R135: an E-stop input as the part leaves reset: CLEAR, its timer started if its line is low. -/
def leaveEStop (low : Bool) : EStopRec :=
  { demanded := false, timer := if low then some (Interlock.reset .power).debounce else none }

/-- R48: the tracking unit as the part leaves reset: the strip-present timer is started if the raw input is present. -/
def leaveTracking (present : Bool) : Tracking :=
  { Tracking.reset with stripTimer := if present then some Tracking.reset.debounce else none }

/-- R142: every block at its reset values, for the levels now on the lines. While RESET is asserted nothing has been sent
on the stand reference port (log 7). -/
def blocksAtReset (cause : ResetCause) (s : State) : State :=
  { State.reset with
    trk := leaveTracking s.pins.strip
    ilk := { Interlock.reset cause with estop := .ofFn fun e => leaveEStop (s.pins.estopLow.get e) }
    link := .reset s.pins.straps
    port := if s.pins.reset then .fill { last := none, sends := 0 } else State.reset.port
    pins := s.pins
    pending := s.pending }

/-- R141, R142, R155: the part leaves reset: reset values, and STARTED queued before any other report. -/
def leaveReset (cause : ResetCause) (s : State) : State :=
  let s := blocksAtReset cause s
  if s.pins.reset then setLink (s.link.offer (.started cause)) s else report (.started cause) s

/-- R142: the part is held in reset: STOP asserted, ATTN released, nothing sent on the link. -/
def holdInReset (s : State) : State :=
  { s with
    pins := { s.pins with reset := true }
    ilk := { s.ilk with stop := true }
    link := { s.link with attn := false, sending := none } }

/-! ### RESTART (R140) -/

/-- R19: the channel unit after a restart. -/
def restartChannels (u : ChannelUnit) : ChannelUnit where
  recs := .ofFn fun c => if (u.recs.get c).enabled then (u.recs.get c).cleared else u.recs.get c
  biteIn := .fill false
  overload := .fill false

/-- R22: a counter after a restart. -/
def restartCounter (c : Counter) : Counter := { c with tally := 0, rest := 0 }

/-- R49: the tracking unit after a restart: settings, next id and the debounced strip-present state with its timer are
kept. -/
def restartTracking (t : Tracking) : Tracking where
  spanLen := t.spanLen
  segLen := t.segLen
  headWindow := t.headWindow
  tailWindow := t.tailWindow
  debounce := t.debounce
  nextId := t.nextId
  queues := .fill []
  underEntry := none
  underStand := .fill none
  underExit := none
  acc := .fill { sum := 0, count := 0 }
  headWatch := .fill none
  tailWatch := .fill none
  entry := if t.strip then .rejected else .empty
  entryDist := 0
  poolFull := false
  strip := t.strip
  stripTimer := t.stripTimer

/-- R83: a stand's gauge control items after a restart, before its AGC state is derived. -/
def restartAgc (g : AgcStand) : AgcStand :=
  { g with href := none, lockonCount := 0, stepLimited := false, atLimit := false }

/-- R127: the live condition of a source as a restart leaves it: the E-stop states are kept, every other condition is
false. -/
def restartLive (i : Interlock) : Source → Bool
  | .estop e => (i.estop.get e).demanded
  | _ => false

/-- R127: a source record after a restart. -/
def restartSource (i : Interlock) (x : Source) (r : SourceRec) : SourceRec :=
  { r with st := .quiet, acted := false, rep := false, live := restartLive i x }

/-- R127: the trip controller after a restart. -/
def restartTrips (u : ChannelUnit) (strip : Bool) (i : Interlock) (t : Trips) : Trips where
  src := .ofFn fun x => restartSource i x (t.src.get x)
  ceiling := t.ceiling
  stack := []
  inputs := { chan := .ofFn fun c => (u.recs.get c).st, exitKind := none, strip := strip }

/-- R140, stage 1: every block's running state is cleared and its configuration kept. -/
def restartBlocks (s : State) : State :=
  let chan := restartChannels s.chan
  let s :=
    { s with
      chan := chan
      counters := .ofFn fun k => restartCounter (s.counters.get k)
      trk := restartTracking s.trk
      sched := { s.sched with coils := [] }
      gauge := { s.gauge with stands := .ofFn fun k => restartAgc (s.gauge.stands.get k), m := 0 }
      trips := restartTrips chan s.trk.strip s.ilk s.trips
      ilk := { s.ilk with sets := .fill [], cause := .restart }
      link := { s.link with reports := [], lost := s.link.lost || !s.link.reports.isEmpty } }
  Stand.all.foldl (fun s k => deriveAgc k s) s

/-- R140: an accepted RESTART: the blocks, the latching check, ATTN. -/
def restartPart (s : State) : State := evalAttn (Source.all.foldl latchCheck (restartBlocks s))

/-! ### Time (log 2) -/

/-- A running timer's time left after a millisecond. -/
def lower (t : Option Nat) : Option Nat := t.map (· - 1)

/-- A millisecond passes with no event: the time left on every running timer falls by one. A byte gap is less than a
millisecond at every rate, so the byte-gap timer's time is used up. While held in reset no timer runs. -/
def millisecond (s : State) : State :=
  if s.pins.reset then s
  else
    { s with
      chan := { s.chan with
        recs := .ofFn fun c => { s.chan.recs.get c with staleLeft := lower (s.chan.recs.get c).staleLeft } }
      trk := { s.trk with stripTimer := lower s.trk.stripTimer }
      eng := .ofFn fun k => { s.eng.get k with settleLeft := lower (s.eng.get k).settleLeft }
      ilk := { s.ilk with
        estop := .ofFn fun e => { s.ilk.estop.get e with timer := lower (s.ilk.estop.get e).timer } }
      link := { s.link with supLeft := lower s.link.supLeft, gapLeft := s.link.gapLeft.map fun _ => 0 } }

end Sys2Proof.Machine
end

