-- ==== Sys2Proof/Machine/Requests.lean ====
section
/-! DEFINITION. Requests (08_the_control_link.md, 8.4): the common checks and replies, and what each request's owner does. A
request command is a frame that has passed its check (R148, log 4). -/
namespace Sys2Proof.Machine

/-! ### Common handling (R148 to R152) -/

/-- What an owner makes of a request: the state, the reply's status and content, and what follows once the reply has
joined the list. -/
structure Answer where
  state : State
  status : Status
  content : List Byte
  followUp : State → State := id

/-- A request refused, or answered with a status alone, changes nothing. -/
def refuse (status : Status) (s : State) : Answer := { state := s, status := status, content := [] }

/-- OK, or ADJUSTED where a value was brought within its limits (R152). -/
def okOr (adjusted : Bool) : Status := if adjusted then .adjusted else .ok

/-- R149: the supervision timer is started with the supervision time, or stopped if that is 0. -/
def startSupervision (s : State) : State :=
  setLink { s.link with supLeft := if s.link.supTime = 0 then none else some s.link.supTime } s

/-- R149: a frame that passes its check restarts the running timer. -/
def restartSupervision (s : State) : State := if s.link.supLeft.isSome then startSupervision s else s

/-- R148: a frame has passed its check: supervision restarts, and the frame is decoded unless the reply list is full.
While the part is held in reset no frame is received (R142). -/
def receiveFrame (handle : State → State) (s : State) : State :=
  if s.pins.reset then s
  else
    let s := restartSupervision s
    if Config.replyListSize ≤ s.link.replies.length then s else handle s

/-- R151, step 3, and R152: a request whose type and size are right: the tag, then its owner, then the reply. -/
def decode (type tag : Byte) (owner : State → Answer) (s : State) : State :=
  let a := if 7 < tag.toNat then refuse .range s else owner s
  a.followUp (addReply { type := type, tag := tag, status := a.status, content := a.content } a.state)

/-- A request that arrives as a good frame of its type and size. -/
def request (type tag : Byte) (owner : State → Answer) (s : State) : State := receiveFrame (decode type tag owner) s

/-- R151, steps 1 and 2, and R152: a frame answered with a status alone. -/
def turnAway (type tag : Byte) (status : Status) (s : State) : State :=
  addReply { type := type, tag := tag, status := status, content := [] } s

/-! ### Link controller -/

/-- R154: IDENTIFY. -/
def answerIdentify (s : State) : Answer where
  state := s
  status := .ok
  content := be2 Config.vendorCode ++ be2 Config.partCode ++ be1 Config.revision ++ [s.ilk.cause.code]

/-- R157: STATUS. -/
def answerStatus (s : State) : Answer where
  state := s
  status := .ok
  content :=
    [bit s.ilk.lockOpen, bit s.ilk.stop] ++ be1 s.trips.ceiling ++ [bit s.link.attn] ++
      (Stand.all.flatMap fun k => [(s.eng.get k).act.code, (s.gauge.stands.get k).st.code]) ++
      (Channel.all.map fun c => (s.chan.recs.get c).st.code) ++ be1 s.trk.free ++ be1 s.sched.coils.length ++
      be1 s.sched.queue.length ++ be1 s.link.reports.length ++ [bit s.trk.strip] ++
      EStop.all.map fun e => bit (s.ilk.estop.get e).demanded

/-- R150: the supervision time for a value sent. -/
def supervisionFor (x : Nat) : Nat := if x = 0 then 0 else clampNat 20 2000 x

/-- R135, R150: SET_LINK. -/
def answerSetLink (supervision : Word) (debounce : Byte) (s : State) : Answer :=
  let t := supervisionFor supervision.toNat
  let d := clampNat 1 50 debounce.toNat
  let s := { s with ilk := { s.ilk with debounce := d }, link := { s.link with supTime := t } }
  { state := if s.ilk.lockOpen then startSupervision s else s
    status := okOr (t != supervision.toNat || d != debounce.toNat)
    content := be2 t ++ be1 d }

/-! ### Channel unit -/

/-- R1: the full range of a channel's quantity. -/
def fullRange : Channel → Int × Int
  | .force _ => (-2000, 60000)
  | .position _ | .entry | .exit => (0, 30000)

/-- R15: a channel's configuration as it is stored; its running state cleared (R16). -/
def configured (r : ChannelRec) (range : Int × Int) (enable : Bool) (f : ChannelFields) : ChannelRec :=
  let lo := clamp range.1 range.2 f.lo.toInt
  let hi := clamp range.1 range.2 f.hi.toInt
  { r with
    enabled := enable
    zero := f.zero.toNat
    span := max 1 f.span.toNat
    lo := lo
    hi := if hi < lo then lo else hi
    n := filterLength f.n.toNat
    staleTime := clampNat 1 1000 f.staleTime.toNat }.cleared

/-- R15: whether any value sent was brought within its limits. -/
def channelAdjusted (r : ChannelRec) (f : ChannelFields) : Bool :=
  r.span != f.span.toNat || r.lo != f.lo.toInt || r.hi != f.hi.toInt || r.n != f.n.toNat ||
    r.staleTime != f.staleTime.toNat

/-- R15, R159: a channel's configuration as a reply carries it. -/
def configBytes (r : ChannelRec) : List Byte :=
  [bit r.enabled] ++ be2 r.zero ++ be2 r.span ++ be4 r.lo ++ be4 r.hi ++ be1 r.n ++ be2 r.staleTime

/-- R15, R16: SET_CHANNEL. -/
def answerSetChannel (f : ChannelFields) (s : State) : Answer :=
  match Channel.ofNat? f.channel.toNat, yesNo? f.enable with
  | some c, some enable =>
    let r := configured (s.chan.recs.get c) (fullRange c) enable f
    { state := handState c (report (.channelState c r.st .enable) (setChannel c r s))
      status := okOr (channelAdjusted r f)
      content := configBytes r }
  | _, _ => refuse .range s

/-- R159: the bite state and overload condition of a force channel, each with a presence byte of its own (DESIGN CHOICE, log 12: R168
allows one for the two as well). -/
def comparatorBytes (c : Channel) (s : State) : List Byte :=
  match c with
  | .force k => optional 1 (fun b => [bit b]) (some (s.chan.biteIn.get k)) ++
      optional 1 (fun b => [bit b]) (some (s.chan.overload.get k))
  | .position _ | .entry | .exit => optional 1 (fun b => [bit b]) none ++ optional 1 (fun b => [bit b]) none

/-- R159: READ_CHANNEL. -/
def answerReadChannel (channel : Byte) (s : State) : Answer :=
  match Channel.ofNat? channel.toNat with
  | none => refuse .range s
  | some c =>
    let r := s.chan.recs.get c
    { state := s
      status := .ok
      content :=
        configBytes r ++ [r.st.code] ++ counted be4 r.filter ++ optional 4 be4 r.filtered ++ optional 4 be4 r.last ++
          be1 r.invalidCount ++ be1 r.rangeCount ++ optional 2 (fun t : Nat => be2 t) r.staleLeft ++
          comparatorBytes c s }

/-! ### Move engines -/

/-- R104: the settings as they are stored, each clamped, the window by GAP_MIN first and BITE_ON before BITE_OFF. -/
def clampedCfg (f : StandFields) : StandCfg :=
  let gapMin := clamp 0 29000 (uint f.gapMin)
  let biteOn := clamp 100 10000 (uint f.biteOn)
  { gapMin := gapMin
    gapMax := clamp (gapMin + 1000) 30000 (uint f.gapMax)
    f0 := clamp 0 5000 (uint f.f0)
    m := clamp 1000 10000 (uint f.m)
    fMax := clamp 1000 40000 (uint f.fMax)
    biteOn := biteOn
    biteOff := clamp 0 (biteOn - 1) (uint f.biteOff)
    setRate := clampNat 1 500 f.setRate.toNat
    agcRate := clampNat 1 500 f.agcRate.toNat
    retractRate := clampNat 1 2000 f.retractRate.toNat
    stepMax := clamp 1 2000 (uint f.stepMax)
    settleTime := clampNat 5 500 f.settleTime.toNat
    inPos := clamp 1 200 (uint f.inPos)
    posErrLimit := clamp 10 5000 (uint f.posErrLimit)
    posErrCount := clampNat 1 100 f.posErrCount.toNat }

/-- R104: the fifteen settings in the order of the request. -/
def cfgValues (c : StandCfg) : List Int :=
  [c.gapMin, c.gapMax, c.f0, c.m, c.fMax, c.biteOn, c.biteOff, c.setRate, c.agcRate, c.retractRate, c.stepMax,
    c.settleTime, c.inPos, c.posErrLimit, c.posErrCount]

/-- R104: the fifteen values as sent. -/
def sentValues (f : StandFields) : List Int :=
  [f.gapMin, f.gapMax, f.f0, f.m, f.fMax, f.biteOn, f.biteOff, f.setRate, f.agcRate, f.retractRate, f.stepMax,
    f.settleTime, f.inPos, f.posErrLimit, f.posErrCount].map uint

/-- R104, R105: SET_STAND. -/
def answerSetStand (f : StandFields) (s : State) : Answer :=
  match Stand.ofNat? f.stand.toNat with
  | none => refuse .range s
  | some k =>
    let e := s.eng.get k
    let c := clampedCfg f
    if e.ref < c.gapMin ∨ c.gapMax < e.ref then refuse .range s
    else if !e.atRest then refuse .busy s
    else
      { state := setEngine k { e with cfg := c } s
        status := okOr (cfgValues c != sentValues f)
        content := (cfgValues c).flatMap be2 }

/-- R168: an optional tag. -/
def tagField (t : Option Tag) : List Byte := optional 1 (fun t => be1 t.num) t

/-- R158: the held-from state of a held move. -/
def heldFrom? : Activity → Option Phase
  | .held _ p => some p
  | .idle | .ramping _ | .settling _ => none

/-- R158: the active move. -/
def activeBytes (act : Activity) : List Byte :=
  optional 12
    (fun a : Active =>
      [a.move.origin.code] ++ be2 a.move.target ++ be2 a.move.step ++ be2 a.remaining ++ tagField a.move.tag ++
        [bit a.move.clamped] ++ optional 1 (fun p => [Phase.code p]) (heldFrom? act))
    act.active?

/-- R158: a pending move. -/
def pendingBytes (m : Move) : List Byte :=
  [m.origin.code] ++ be2 m.target ++ be2 m.step ++ tagField m.tag ++ [bit m.clamped]

/-- R158: READ_STAND. -/
def answerReadStand (stand : Byte) (s : State) : Answer :=
  match Stand.ofNat? stand.toNat with
  | none => refuse .range s
  | some k =>
    let e := s.eng.get k
    let g := s.gauge.stands.get k
    { state := s
      status := .ok
      content :=
        be2 e.ref ++ [e.act.code, bit e.retracted] ++ be1 e.posErr ++ activeBytes e.act ++
          counted pendingBytes e.pending ++ [g.mode.code, g.st.code] ++ optional 2 be2 g.href ++ be2 g.lockonCount ++
          [bit g.stepLimited, bit g.atLimit] ++ optional 2 be2 (if k = .s6 then some s.gauge.m else none) ++
          [Action.alarm, .hold, .retract, .stop].flatMap fun a => be1 (s.entryCount k a) }

/-- R94: the LINK move of a request. -/
def linkMove (tag : Tag) (target rate : Word) : Move :=
  { origin := .link, target := uint target, step := clampNat 1 500 rate.toNat, tag := some tag, clamped := false }

/-- R94: MOVE. -/
def answerMove (tag stand : Byte) (target rate : Word) (s : State) : Answer :=
  match Stand.ofNat? stand.toNat, Tag.ofNat? tag.toNat with
  | some k, some t =>
    let e := s.eng.get k
    if uint target < e.cfg.gapMin ∨ e.cfg.gapMax < uint target then refuse .range s
    else if !s.ilk.lockOpen then refuse .locked s
    else if s.retracting k then refuse .tripped s
    else if (s.slots.get t).isSome then refuse .tagBusy s
    else if Config.pendingSize ≤ e.pending.length then refuse .queueFull s
    else
      let m := linkMove t target rate
      let s := setSlots (s.slots.set t (some k)) s
      let joins := !startsAtOnce k (makeWay k s)
      { state := takeMove k m s
        status := okOr (m.step != rate.toNat)
        content :=
          be1 k.num ++ be2 m.target ++ be2 m.step ++ [bit joins] ++
            optional 1 (fun n : Nat => be1 n) (if joins then some (e.pending.length + 1) else none) }
  | _, _ => refuse .range s

/-- R97, R98: the origin, tag and target of a move held or resumed. -/
def heldMoveBytes (m : Move) : List Byte := [m.origin.code] ++ tagField m.tag ++ be2 m.target

/-- R97: HOLD_MOVE. -/
def answerHoldMove (stand : Byte) (s : State) : Answer :=
  match Stand.ofNat? stand.toNat with
  | none => refuse .range s
  | some k =>
    match (s.eng.get k).act with
    | .ramping a | .settling a =>
      if a.move.origin = .retract then refuse .busy s
      else { state := holdActive k s, status := .ok, content := heldMoveBytes a.move }
    | .idle | .held _ _ => refuse .busy s

/-- R98: RESUME_MOVE. -/
def answerResumeMove (stand : Byte) (s : State) : Answer :=
  match Stand.ofNat? stand.toNat with
  | none => refuse .range s
  | some k =>
    if !s.ilk.lockOpen then refuse .locked s
    else if s.blocked k then refuse .tripped s
    else
      match (s.eng.get k).act with
      | .held a _ => { state := resumeActive k s, status := .ok, content := heldMoveBytes a.move }
      | .idle | .ramping _ | .settling _ => refuse .busy s

/-- R99: the LINK move with a tag is removed from a stand's pending queue. -/
def cancelPending (k : Stand) (m : Move) (s : State) : State :=
  let e := s.eng.get k
  let s := setEngine k { e with pending := e.pending.filter fun p => p.tag != m.tag } s
  deriveAgc k (reportMove k m .cancelled (freeSlot m.tag s))

/-- R99: CANCEL_MOVE. -/
def answerCancelMove (named : Byte) (s : State) : Answer :=
  match Tag.ofNat? named.toNat with
  | none => refuse .range s
  | some t =>
    match s.slots.get t with
    | none => refuse .notFound s
    | some k =>
      let e := s.eng.get k
      match e.act.active?.filter fun a => a.move.tag == some t with
      | some a =>
        { state := deriveAgc k (finishMove k a.move .cancelled s), status := .ok, content := be1 k.num ++ [bit false] }
      | none =>
        match e.pending.find? fun m => m.tag == some t with
        | some m => { state := cancelPending k m s, status := .ok, content := be1 k.num ++ [bit true] }
        | none => refuse .notFound s

/-! ### Gauge control unit -/

/-- R67: the mode change of an accepted SET_AGC. -/
def changeMode (k : Stand) (mode : AgcMode) (s : State) : State :=
  if (s.gauge.stands.get k).mode = mode then s
  else
    let s := clearReference k s
    deriveAgc k (setAgc k { s.gauge.stands.get k with mode := mode } s)

/-- R66, R67: SET_AGC. -/
def answerSetAgc (f : AgcFields) (s : State) : Answer :=
  match Stand.ofNat? f.stand.toNat, agcMode? f.mode with
  | some k, some mode =>
    if !s.ilk.lockOpen ∧ mode ≠ .off then refuse .locked s
    else
      let db := clamp 0 100 (uint f.db)
      let gMon := clamp 0 256 (uint f.gMon)
      let seg := clampNat 1 8 f.lockonSeg.toNat
      let s := changeMode k mode { s with gauge := { s.gauge with db := db, gMon := gMon, lockonSeg := seg } }
      { state := s
        status := okOr (db != uint f.db || gMon != uint f.gMon || seg != f.lockonSeg.toNat)
        content :=
          be1 k.num ++ [mode.code, (s.gauge.stands.get k).st.code] ++ be1 db ++ be2 gMon ++ be1 seg }
  | _, _ => refuse .range s

/-! ### Tracking unit -/

/-- R47: the values of a SET_TRACKING as stored, in the order of the request. -/
def trackingValues (f : TrackingFields) : List Nat :=
  [clampNat 1000 12000 f.length.toNat, prescalerFor f.prescaler.toNat, max 1 f.perCount.toNat,
    clampNat 500 20000 f.segLen.toNat, clampNat 50 5000 f.headWindow.toNat, clampNat 50 5000 f.tailWindow.toNat,
    clampNat 1 50 f.debounce.toNat]

/-- R22, R47: the settings of an accepted SET_TRACKING are stored and the span's counter cleared. -/
def storeTracking (k : Span) (f : TrackingFields) (s : State) : State :=
  { s with
    trk := { s.trk with
      spanLen := s.trk.spanLen.set k (clampNat 1000 12000 f.length.toNat)
      segLen := clampNat 500 20000 f.segLen.toNat
      headWindow := clampNat 50 5000 f.headWindow.toNat
      tailWindow := clampNat 50 5000 f.tailWindow.toNat
      debounce := clampNat 1 50 f.debounce.toNat }
    counters := s.counters.set k
      { prescaler := prescalerFor f.prescaler.toNat, perCount := max 1 f.perCount.toNat, tally := 0, rest := 0 } }

/-- R47: the reply's values, each in the width of its request field. -/
def trackingBytes (v : List Nat) : List Byte :=
  match v with
  | [l, p, c, g, h, t, d] => be2 l ++ be1 p ++ be2 c ++ be2 g ++ be2 h ++ be2 t ++ be1 d
  | _ => []

/-- R47: SET_TRACKING. -/
def answerSetTracking (f : TrackingFields) (s : State) : Answer :=
  match Span.ofNat? f.span.toNat with
  | none => refuse .range s
  | some k =>
    if s.trk.used ≠ 0 then refuse .busy s
    else
      { state := storeTracking k f s
        status :=
          okOr (trackingValues f !=
            [f.length.toNat, f.prescaler.toNat, f.perCount.toNat, f.segLen.toNat, f.headWindow.toNat,
              f.tailWindow.toNat, f.debounce.toNat])
        content := trackingBytes (trackingValues f) }

/-- R161: the span a record is in, its place from the front starting at 1, and its distance to go. -/
def placeOf (t : Tracking) (id : Nat) : Option (Span × Nat × Int) :=
  Span.all.findSome? fun k => (findQueued (fun g => g.id == id) (t.queues.get k)).map fun (n, d) => (k, n + 1, d)

/-- R161: where a record stands. -/
def placeBytes (t : Tracking) (id : Nat) : List Byte :=
  optional 4 (fun (p : Span × Nat × Int) => be1 p.1.num ++ be1 p.2.1 ++ be2 p.2.2) (placeOf t id) ++
    [bit (t.under .exit == some id)] ++ pointSet (.ofFn fun p => t.under p == some id)

/-- R161: READ_SEGMENT. -/
def answerReadSegment (id : Word) (s : State) : Answer :=
  if 4095 < id.toNat then refuse .range s
  else
    match s.trk.find? id.toNat with
    | none => refuse .notFound s
    | some g => { state := s, status := .ok, content := g.bytes ++ placeBytes s.trk g.id }

/-- R162: a coil record. -/
def coilBytes (c : Coil) : List Byte :=
  be2 c.number ++ [bit c.schedule.isSome] ++ pointSet c.head ++ pointSet c.tail ++ standSet c.setup ++
    be2 c.segCount ++ be2 c.offCount

/-- R162: READ_COIL. -/
def answerReadCoil (s : State) : Answer where
  state := s
  status := .ok
  content := counted coilBytes s.sched.coils ++ be1 s.sched.queue.length ++ be2 s.sched.lastCoil

/-! ### Schedule store -/

/-- R50, R51: one stand's items, each clamped. -/
def storedStand (f : StandScheduleFields) : StandSchedule where
  gap := clamp 0 30000 (uint f.gap)
  h := clamp 0 30000 (uint f.h)
  q := clamp 0 20000 (uint f.q)
  gFb := clamp 0 256 (uint f.gFb)
  gFf := clamp 0 256 (uint f.gFf)

/-- R50, R51: a schedule as it is stored. -/
def storedSchedule (f : ScheduleFields) : Schedule where
  coil := f.coil.toNat
  hNom := clamp 0 30000 (uint f.hNom)
  stands := .ofFn fun k => storedStand (f.stands.get k)

/-- R50, R168: a schedule's items in R50's order: each kind of item for the six stands in turn. -/
def scheduleValues (d : Schedule) : List Int :=
  let stands := d.stands.toList
  [(d.coil : Int), d.hNom] ++ stands.map StandSchedule.gap ++ stands.map StandSchedule.h ++ stands.map StandSchedule.q ++
    stands.map StandSchedule.gFb ++ stands.map StandSchedule.gFf

/-- R51: the items as sent, in the same order. -/
def sentSchedule (f : ScheduleFields) : List Int :=
  let stands := f.stands.toList
  [uint f.coil, uint f.hNom] ++
    (stands.map StandScheduleFields.gap ++ stands.map StandScheduleFields.h ++ stands.map StandScheduleFields.q ++
      stands.map StandScheduleFields.gFb ++ stands.map StandScheduleFields.gFf).map uint

/-- R51: LOAD_SCHEDULE. Refused, its reply carries the queue's count (R152). -/
def answerLoadSchedule (f : ScheduleFields) (s : State) : Answer :=
  if Config.scheduleQueueSize ≤ s.sched.queue.length then
    { state := s, status := .queueFull, content := be1 s.sched.queue.length }
  else
    let d := storedSchedule f
    { state := setSched { s.sched with queue := s.sched.queue ++ [d] } s
      status := okOr (scheduleValues d != sentSchedule f)
      content := (scheduleValues d).flatMap be2 ++ be1 (s.sched.queue.length + 1) }

/-- R52: FLUSH_SCHEDULES. -/
def answerFlushSchedules (s : State) : Answer where
  state := setSched { s.sched with queue := [] } s
  status := .ok
  content := be1 s.sched.queue.length

/-! ### Trip controller -/

/-- R122: the configuration a SET_SOURCE stores: a STOP or RETRACT source is kept urgent and unmasked. -/
def storedSource (r : SourceRec) (mode : SrcMode) (priority : Nat) (action : Action) (masked : Bool) : SourceRec :=
  let priority := min 7 priority
  match action with
  | .stop => { r with mode := mode, priority := 0, action := action, masked := false }
  | .retract => { r with mode := mode, priority := min 1 priority, action := action, masked := false }
  | .alarm | .hold => { r with mode := mode, priority := priority, action := action, masked := masked }

/-- R122, R123: SET_SOURCE. The latching check follows the accepted request (log 11). -/
def answerSetSource (f : SourceFields) (s : State) : Answer :=
  match Source.ofNat? f.source.toNat, srcMode? f.mode, action? f.action, yesNo? f.masked with
  | some x, some mode, some action, some masked =>
    let r := s.trips.src.get x
    if r.st ≠ .quiet then refuse .busy s
    else
      let r' := storedSource r mode f.priority.toNat action masked
      { state := setSource x r' s
        status := okOr (r'.priority != f.priority.toNat || r'.masked != masked)
        content := [r'.mode.code] ++ be1 r'.priority ++ [r'.action.code, bit r'.masked]
        followUp := fun s => evalAttn (latchCheck s x) }
  | _, _, _, _ => refuse .range s

/-- R124: SET_CEILING. -/
def answerSetCeiling (ceiling : Byte) (s : State) : Answer :=
  let c := clampNat 2 8 ceiling.toNat
  let s := { s with trips := { s.trips with ceiling := c } }
  { state := evalAttn (Source.all.foldl actIfEligible s)
    status := okOr (c != ceiling.toNat)
    content := be1 c ++ sourceSet (actedByCeiling s) }

/-- R160: a source record. -/
def sourceBytes (r : SourceRec) : List Byte :=
  [r.mode.code] ++ be1 r.priority ++ [r.action.code, bit r.masked, r.st.code, bit r.acted, bit r.rep, bit r.live]

/-- R160: READ_TRIPS; the stack is sent bottom to top. -/
def answerReadTrips (s : State) : Answer where
  state := s
  status := .ok
  content :=
    s.trips.src.toList.flatMap sourceBytes ++ counted (fun x => be1 x.num) s.trips.stack.reverse ++ be1 s.trips.ceiling

/-- R116, R117: the source, its priority and action, and the depth of the stack. -/
def selectionBytes (x : Source) (r : SourceRec) (depth : Nat) : List Byte :=
  be1 x.num ++ be1 r.priority ++ [r.action.code] ++ be1 depth

/-- R117: PEEK_TRIP. -/
def answerPeekTrip (s : State) : Answer :=
  match selected s with
  | none => refuse .none s
  | some x =>
    { state := s, status := .ok, content := selectionBytes x (s.trips.src.get x) s.trips.stack.length }

/-- R116: TAKE_TRIP. -/
def answerTakeTrip (s : State) : Answer :=
  match selected s with
  | none => refuse .none s
  | some x =>
    { state := take x s, status := .ok, content := selectionBytes x (s.trips.src.get x) (s.trips.stack.length + 1) }

/-- R121: a source in service is ended. -/
def answerEnded (x : Source) (s : State) : Answer :=
  let t := endService x s
  { state := t
    status := .ok
    content := be1 x.num ++ [(t.trips.src.get x).st.code] ++ be1 t.trips.stack.length }

/-- R119, R120: END_TRIP. -/
def answerEndTrip (form source : Byte) (s : State) : Answer :=
  match yesNo? form with
  | none => refuse .range s
  | some false =>
    match s.trips.stack with
    | [] => refuse .none s
    | x :: _ => answerEnded x s
  | some true =>
    match Source.ofNat? source.toNat with
    | none => refuse .range s
    | some x => if (s.trips.src.get x).st = .inService then answerEnded x s else refuse .notFound s

/-- R125: RAISE_TRIP. -/
def answerRaiseTrip (s : State) : Answer :=
  let t := edge .commanded s
  { state := t, status := .ok, content := [(t.trips.src.get .commanded).st.code] }

/-! ### Interlock unit -/

/-- R133: CLEAR_STOP. Every reply of its own carries the line's state (R152). -/
def answerClearStop (s : State) : Answer :=
  if !s.ilk.lockOpen then { state := s, status := .locked, content := [bit s.ilk.stop] }
  else if stopActed s then { state := s, status := .tripped, content := [bit s.ilk.stop] }
  else { state := { s with ilk := { s.ilk with stop := false } }, status := .ok, content := [bit false] }

/-- R138, R149: UNLOCK. Every reply of its own carries the lock state (R152). -/
def answerUnlock (s : State) : Answer :=
  if (s.trips.src.get .linkSilent).st ≠ .quiet then
    { state := s, status := .tripped, content := [bit s.ilk.lockOpen] }
  else
    { state := startSupervision { s with ilk := { s.ilk with lockOpen := true } }
      status := .ok
      content := [bit true] }

/-- R139: whether the mill is not stopped and at rest. -/
def running (s : State) : Bool := !s.ilk.stop || Stand.all.any fun k => !(s.eng.get k).atRest

/-- R139, R140: RESTART. -/
def answerRestart (s : State) : Answer :=
  if running s then refuse .running s else { state := restartPart s, status := .ok, content := [] }

/-! ### Any request -/

/-- R151, step 4: the owner of each request; UNKNOWN_TYPE for what is no request. -/
def ownerOf (i : Instr) : State → Answer :=
  match i with
  | .identify _ => answerIdentify
  | .status _ => answerStatus
  | .setChannel _ f => answerSetChannel f
  | .readChannel _ channel => answerReadChannel channel
  | .setStand _ f => answerSetStand f
  | .readStand _ stand => answerReadStand stand
  | .setAgc _ f => answerSetAgc f
  | .setTracking _ f => answerSetTracking f
  | .readSegment _ id => answerReadSegment id
  | .readCoil _ => answerReadCoil
  | .loadSchedule _ f => answerLoadSchedule f
  | .flushSchedules _ => answerFlushSchedules
  | .move tag stand target rate => answerMove tag stand target rate
  | .holdMove _ stand => answerHoldMove stand
  | .resumeMove _ stand => answerResumeMove stand
  | .cancelMove _ named => answerCancelMove named
  | .setSource _ f => answerSetSource f
  | .setCeiling _ ceiling => answerSetCeiling ceiling
  | .readTrips _ => answerReadTrips
  | .peekTrip _ => answerPeekTrip
  | .takeTrip _ => answerTakeTrip
  | .endTrip _ form source => answerEndTrip form source
  | .raiseTrip _ => answerRaiseTrip
  | .clearStop _ => answerClearStop
  | .unlock _ => answerUnlock
  | .restart _ => answerRestart
  | .setLink _ supervision debounce => answerSetLink supervision debounce
  | _ => refuse .unknownType

/-- R151: the decoder takes a frame: the type, the payload's size, then the request. -/
def decodeFrame (type tag : Byte) (payload : List Byte) (s : State) : State :=
  match payloadSize? type with
  | none => turnAway type tag .unknownType s
  | some n =>
    if payload.length ≠ n then turnAway type tag .badLength s
    else decode type tag (ownerOf (requestOf type tag payload)) s

end Sys2Proof.Machine
end

