-- ==== Sys2Proof/Machine/HostRequests.lean ====
section
/-! DEFINITION. The meanings of the host's requests: each is a frame of its type and size that has passed its check (R148), handled by
the request's owner. -/
namespace Sys2Proof.Machine

/-- What a command answers. -/
abbrev Result := Host.Outcome State Fault Refusal

/-- IDENTIFY (R154). -/
def execIdentify (tag : Byte) (s : State) : Result :=
  .next (request 0x01 tag answerIdentify s)

/-- STATUS (R157). -/
def execStatus (tag : Byte) (s : State) : Result :=
  .next (request 0x02 tag answerStatus s)

/-- SET_CHANNEL (R15, R16). -/
def execSetChannel (tag : Byte) (f : ChannelFields) (s : State) : Result :=
  .next (request 0x03 tag (answerSetChannel f) s)

/-- READ_CHANNEL (R159). -/
def execReadChannel (tag channel : Byte) (s : State) : Result :=
  .next (request 0x04 tag (answerReadChannel channel) s)

/-- SET_STAND (R104, R105). -/
def execSetStand (tag : Byte) (f : StandFields) (s : State) : Result :=
  .next (request 0x05 tag (answerSetStand f) s)

/-- READ_STAND (R158). -/
def execReadStand (tag stand : Byte) (s : State) : Result :=
  .next (request 0x06 tag (answerReadStand stand) s)

/-- SET_AGC (R66, R67). -/
def execSetAgc (tag : Byte) (f : AgcFields) (s : State) : Result :=
  .next (request 0x07 tag (answerSetAgc f) s)

/-- SET_TRACKING (R47). -/
def execSetTracking (tag : Byte) (f : TrackingFields) (s : State) : Result :=
  .next (request 0x08 tag (answerSetTracking f) s)

/-- READ_SEGMENT (R161). -/
def execReadSegment (tag : Byte) (id : Word) (s : State) : Result :=
  .next (request 0x09 tag (answerReadSegment id) s)

/-- READ_COIL (R162). -/
def execReadCoil (tag : Byte) (s : State) : Result :=
  .next (request 0x0A tag answerReadCoil s)

/-- LOAD_SCHEDULE (R51). -/
def execLoadSchedule (tag : Byte) (f : ScheduleFields) (s : State) : Result :=
  .next (request 0x0B tag (answerLoadSchedule f) s)

/-- FLUSH_SCHEDULES (R52). -/
def execFlushSchedules (tag : Byte) (s : State) : Result :=
  .next (request 0x0C tag answerFlushSchedules s)

/-- MOVE (R94). -/
def execMove (tag stand : Byte) (target rate : Word) (s : State) : Result :=
  .next (request 0x0D tag (answerMove tag stand target rate) s)

/-- HOLD_MOVE (R97). -/
def execHoldMove (tag stand : Byte) (s : State) : Result :=
  .next (request 0x0E tag (answerHoldMove stand) s)

/-- RESUME_MOVE (R98). -/
def execResumeMove (tag stand : Byte) (s : State) : Result :=
  .next (request 0x0F tag (answerResumeMove stand) s)

/-- CANCEL_MOVE (R99). -/
def execCancelMove (tag named : Byte) (s : State) : Result :=
  .next (request 0x10 tag (answerCancelMove named) s)

/-- SET_SOURCE (R122, R123). -/
def execSetSource (tag : Byte) (f : SourceFields) (s : State) : Result :=
  .next (request 0x11 tag (answerSetSource f) s)

/-- SET_CEILING (R124). -/
def execSetCeiling (tag ceiling : Byte) (s : State) : Result :=
  .next (request 0x12 tag (answerSetCeiling ceiling) s)

/-- READ_TRIPS (R160). -/
def execReadTrips (tag : Byte) (s : State) : Result :=
  .next (request 0x13 tag answerReadTrips s)

/-- PEEK_TRIP (R117). -/
def execPeekTrip (tag : Byte) (s : State) : Result :=
  .next (request 0x14 tag answerPeekTrip s)

/-- TAKE_TRIP (R116). -/
def execTakeTrip (tag : Byte) (s : State) : Result :=
  .next (request 0x15 tag answerTakeTrip s)

/-- END_TRIP (R119 to R121). -/
def execEndTrip (tag form source : Byte) (s : State) : Result :=
  .next (request 0x16 tag (answerEndTrip form source) s)

/-- RAISE_TRIP (R125). -/
def execRaiseTrip (tag : Byte) (s : State) : Result :=
  .next (request 0x17 tag answerRaiseTrip s)

/-- CLEAR_STOP (R133). -/
def execClearStop (tag : Byte) (s : State) : Result :=
  .next (request 0x18 tag answerClearStop s)

/-- UNLOCK (R138). -/
def execUnlock (tag : Byte) (s : State) : Result :=
  .next (request 0x19 tag answerUnlock s)

/-- RESTART (R139, R140). -/
def execRestart (tag : Byte) (s : State) : Result :=
  .next (request 0x1A tag answerRestart s)

/-- SET_LINK (R150). -/
def execSetLink (tag : Byte) (supervision : Word) (debounce : Byte) (s : State) : Result :=
  .next (request 0x1B tag (answerSetLink supervision debounce) s)

/-- UNKNOWN_REQUEST (R151): a good frame whose type is no request type is answered with UNKNOWN_TYPE. A type that is a request
type, or a payload no frame can carry, is no such command (log 17). -/
def execUnknownRequest (type tag : Byte) (payload : List Byte) (s : State) : Result :=
  if isRequestType type then .refused .typeIsARequest
  else if !payloadFits payload then .refused .payloadTooLong
  else .next (receiveFrame (turnAway type tag .unknownType) s)

end Sys2Proof.Machine
end

