-- ==== Sys2Proof/Machine/Events.lean ====
section
/-! DEFINITION. The meanings of the events: bytes and timers of the link, samples, pulses, watches, input changes, updates of the
engines, and resets. While the part is held in reset it takes none of them but the resets, and only follows its lines (R142, log
6). A command that says a timer or watch has run out is taken whenever that timer or watch is running (log 3). -/
namespace Sys2Proof.Machine

/-- R142: an event is taken unless the part is held in reset. -/
def unlessHeld (f : State → State) (s : State) : State := if s.pins.reset then s else f s

/-! ### The receiver (R146, R147) -/

/-- The receiver's state and byte-gap timer. -/
def setRx (rx : Rx) (gap : Option Nat) (s : State) : State := setLink { s.link with rx := rx, gapLeft := gap } s

/-- R146: the receiver waits for a start byte, with the byte-gap timer stopped. -/
def toHunt (s : State) : State := setRx .hunt none s

/-- R145: whether the check bytes agree with the check over the length byte and the bytes after it. -/
def checkAgrees (len : Nat) (got : List Byte) (high low : Byte) : Bool :=
  crc (BitVec.ofNat 8 len :: got) == word high low

/-- R148: a frame that has passed its check: its first two bytes are type and tag, the rest its payload. -/
def frameReceived (got : List Byte) (s : State) : State :=
  receiveFrame (decodeFrame (byteAt got 0) (byteAt got 1) (got.drop 2)) s

/-- R146: the receiver takes a byte. -/
def takeByte (b : Byte) (s : State) : State :=
  let gap := some Config.byteGap
  match s.link.rx with
  | .hunt => if b = Config.startByte then setRx .length gap s else s
  | .length => if 2 ≤ b.toNat ∧ b.toNat ≤ 242 then setRx (.body b.toNat []) gap s else toHunt s
  | .body len got =>
    let got := got ++ [b]
    setRx (if got.length = len then .check len got none else .body len got) gap s
  | .check len got none => setRx (.check len got (some b)) gap s
  | .check len got (some high) => if checkAgrees len got high b then frameReceived got (toHunt s) else toHunt s

/-- RECEIVE_BYTE (R146). -/
def execReceiveByte (b : Byte) (s : State) : Result := .next (unlessHeld (takeByte b) s)

/-- LINE_BREAK (R147): the frame in reception is discarded. -/
def execLineBreak (s : State) : Result := .next (unlessHeld (fun s => if s.link.rx = .hunt then s else toHunt s) s)

/-- BYTE_GAP_EXPIRY (R147): the frame in reception is discarded. -/
def execByteGapExpiry (s : State) : Result :=
  .next (unlessHeld (fun s => if s.link.gapLeft.isSome then toHunt s else s) s)

/-! ### Supervision and transmission -/

/-- R137, R149: the supervision timer has run out: it stops, the part locks and LINK_SILENT edges. -/
def supervisionExpires (s : State) : State :=
  if s.link.supLeft.isNone then s
  else
    edge .linkSilent
      { s with ilk := { s.ilk with lockOpen := false }, link := { s.link with supLeft := none } }

/-- SUPERVISION_EXPIRY (R149). -/
def execSupervisionExpiry (s : State) : Result := .next (unlessHeld supervisionExpires s)

/-- TRANSMIT_DONE (R153): the transmitter finishes its frame and chooses the next. -/
def execTransmitDone (s : State) : Result := .next (unlessHeld (fun s => setLink s.link.next s) s)

/-! ### Channels -/

/-- SAMPLE (R2): a sample that names a number above 13 is discarded at the port. -/
def execSample (channel : Nat) (raw : Word) (valid : Bool) (s : State) : Result :=
  match Channel.ofNat? channel with
  | some c => .next (unlessHeld (takeSample c raw valid) s)
  | none => .next s

/-- STALE_TIMER_EXPIRY (R10). -/
def execStaleTimerExpiry (c : Channel) (s : State) : Result := .next (unlessHeld (staleExpires c) s)

/-! ### Length counting and tracking -/

/-- PULSE (R21). -/
def execPulse (input : Span) (s : State) : Result := .next (unlessHeld (takePulse input) s)

/-- COUNT (R21): the counter's pulse tally reaches P. -/
def execCount (counter : Span) (s : State) : Result := .next (unlessHeld (completeCount counter) s)

/-- HEAD_WATCH_EXPIRY (R42). -/
def execHeadWatchExpiry (k : Stand) (s : State) : Result :=
  .next (unlessHeld (fun s => if (s.trk.headWatch.get k).isSome then headWatchRunsOut k s else s) s)

/-- TAIL_WATCH_EXPIRY (R45). -/
def execTailWatchExpiry (k : Stand) (s : State) : Result :=
  .next (unlessHeld (fun s => if (s.trk.tailWatch.get k).isSome then tailWatchRunsOut k s else s) s)

/-- R28: the strip-present debounce timer follows a change of the raw input. -/
def stripRawChanged (s : State) : State :=
  setTrk
    { s.trk with stripTimer := if s.pins.strip = s.trk.strip then none else some s.trk.debounce } s

/-- STRIP_PRESENT_CHANGE (R28). -/
def execStripPresentChange (present : Bool) (s : State) : Result :=
  if s.pins.strip = present then .next s
  else .next (unlessHeld stripRawChanged { s with pins := { s.pins with strip := present } })

/-- R28: the strip-present debounce timer runs out: the debounced state takes the raw input's value, and the change is handled by the
tracking unit and then handed to the trip controller (log 10). -/
def stripDebounced (s : State) : State :=
  if s.trk.stripTimer.isNone then s
  else
    let was := s.trk.strip
    let now := s.pins.strip
    let s := setTrk { s.trk with strip := now, stripTimer := none } s
    if now = was then s else tripStrip now (if now then stripRises s else stripFalls s)

/-- STRIP_PRESENT_DEBOUNCE_EXPIRY (R28). -/
def execStripPresentDebounceExpiry (s : State) : Result := .next (unlessHeld stripDebounced s)

/-! ### E-stop inputs -/

/-- Replaces one E-stop input's record. -/
def setEStop (e : EStop) (r : EStopRec) (s : State) : State := { s with ilk := { s.ilk with estop := s.ilk.estop.set e r } }

/-- R134: an E-stop input's debounce timer follows a change of its line. -/
def estopRawChanged (e : EStop) (s : State) : State :=
  let r := s.ilk.estop.get e
  setEStop e { r with timer := if s.pins.estopLow.get e = r.demanded then none else some s.ilk.debounce } s

/-- ESTOP_INPUT_CHANGE (R134). -/
def execEstopInputChange (e : EStop) (low : Bool) (s : State) : Result :=
  if s.pins.estopLow.get e = low then .next s
  else .next (unlessHeld (estopRawChanged e) { s with pins := { s.pins with estopLow := s.pins.estopLow.set e low } })

/-- R134: an E-stop debounce timer runs out: the debounced state takes the line's level, which is handed on as the condition of the
input's source. -/
def estopDebounced (e : EStop) (s : State) : State :=
  if (s.ilk.estop.get e).timer.isNone then s
  else
    let low := s.pins.estopLow.get e
    condition (.estop e) low (setEStop e { demanded := low, timer := none } s)

/-- ESTOP_DEBOUNCE_EXPIRY (R134). -/
def execEstopDebounceExpiry (e : EStop) (s : State) : Result := .next (unlessHeld (estopDebounced e) s)

/-! ### Move engines -/

/-- UPDATE_EXPIRY (R89). -/
def execUpdateExpiry (k : Stand) (s : State) : Result := .next (unlessHeld (update k) s)

/-- RAMP_DONE (R89): a ramping move's remaining count reaches 0 (log 3). -/
def execRampDone (k : Stand) (s : State) : Result := .next (unlessHeld (landRamp k) s)

/-- SETTLE_TIMER_EXPIRY (R90). -/
def execSettleTimerExpiry (k : Stand) (s : State) : Result := .next (unlessHeld (settleTimeout k) s)

/-! ### Resets (R142) -/

/-- POWER_ON_RESET: every block takes its power-on values; the part stays held while RESET is asserted (log 7). The command is the whole
of a power-on, from power applied to the supply being good, so that R142's hold in between is no state of its own (DESIGN CHOICE,
log 19). -/
def execPowerOnReset (s : State) : Result := .next (leaveReset .power s)

/-- RESET_ASSERTED: the part is held in reset. -/
def execResetAsserted (s : State) : Result := .next (holdInReset s)

/-- RESET_RELEASED: every block takes its line-reset values. A RESET input that is not asserted is not released. -/
def execResetReleased (s : State) : Result :=
  .next (if s.pins.reset then leaveReset .line { s with pins := { s.pins with reset := false } } else s)

end Sys2Proof.Machine
end

