-- ==== Sys2Proof/Machine/Dispatch.lean ====
section
/-! DEFINITION. One arm per command. -/
namespace Sys2Proof.Machine

def exec (i : Instr) (s : State) : Host.Outcome State Fault Refusal :=
  match i with
  | .identify tag => Sys2Proof.Machine.execIdentify tag s
  | .status tag => Sys2Proof.Machine.execStatus tag s
  | .setChannel tag f => Sys2Proof.Machine.execSetChannel tag f s
  | .readChannel tag channel => Sys2Proof.Machine.execReadChannel tag channel s
  | .setStand tag f => Sys2Proof.Machine.execSetStand tag f s
  | .readStand tag stand => Sys2Proof.Machine.execReadStand tag stand s
  | .setAgc tag f => Sys2Proof.Machine.execSetAgc tag f s
  | .setTracking tag f => Sys2Proof.Machine.execSetTracking tag f s
  | .readSegment tag id => Sys2Proof.Machine.execReadSegment tag id s
  | .readCoil tag => Sys2Proof.Machine.execReadCoil tag s
  | .loadSchedule tag f => Sys2Proof.Machine.execLoadSchedule tag f s
  | .flushSchedules tag => Sys2Proof.Machine.execFlushSchedules tag s
  | .move tag stand target rate => Sys2Proof.Machine.execMove tag stand target rate s
  | .holdMove tag stand => Sys2Proof.Machine.execHoldMove tag stand s
  | .resumeMove tag stand => Sys2Proof.Machine.execResumeMove tag stand s
  | .cancelMove tag named => Sys2Proof.Machine.execCancelMove tag named s
  | .setSource tag f => Sys2Proof.Machine.execSetSource tag f s
  | .setCeiling tag ceiling => Sys2Proof.Machine.execSetCeiling tag ceiling s
  | .readTrips tag => Sys2Proof.Machine.execReadTrips tag s
  | .peekTrip tag => Sys2Proof.Machine.execPeekTrip tag s
  | .takeTrip tag => Sys2Proof.Machine.execTakeTrip tag s
  | .endTrip tag form source => Sys2Proof.Machine.execEndTrip tag form source s
  | .raiseTrip tag => Sys2Proof.Machine.execRaiseTrip tag s
  | .clearStop tag => Sys2Proof.Machine.execClearStop tag s
  | .unlock tag => Sys2Proof.Machine.execUnlock tag s
  | .restart tag => Sys2Proof.Machine.execRestart tag s
  | .setLink tag supervision debounce => Sys2Proof.Machine.execSetLink tag supervision debounce s
  | .unknownRequest type tag payload => Sys2Proof.Machine.execUnknownRequest type tag payload s
  | .receiveByte b => Sys2Proof.Machine.execReceiveByte b s
  | .lineBreak => Sys2Proof.Machine.execLineBreak s
  | .byteGapExpiry => Sys2Proof.Machine.execByteGapExpiry s
  | .supervisionExpiry => Sys2Proof.Machine.execSupervisionExpiry s
  | .transmitDone => Sys2Proof.Machine.execTransmitDone s
  | .sample channel raw valid => Sys2Proof.Machine.execSample channel raw valid s
  | .staleTimerExpiry c => Sys2Proof.Machine.execStaleTimerExpiry c s
  | .pulse input => Sys2Proof.Machine.execPulse input s
  | .count counter => Sys2Proof.Machine.execCount counter s
  | .headWatchExpiry k => Sys2Proof.Machine.execHeadWatchExpiry k s
  | .tailWatchExpiry k => Sys2Proof.Machine.execTailWatchExpiry k s
  | .stripPresentChange present => Sys2Proof.Machine.execStripPresentChange present s
  | .stripPresentDebounceExpiry => Sys2Proof.Machine.execStripPresentDebounceExpiry s
  | .estopInputChange e low => Sys2Proof.Machine.execEstopInputChange e low s
  | .estopDebounceExpiry e => Sys2Proof.Machine.execEstopDebounceExpiry e s
  | .updateExpiry k => Sys2Proof.Machine.execUpdateExpiry k s
  | .rampDone k => Sys2Proof.Machine.execRampDone k s
  | .settleTimerExpiry k => Sys2Proof.Machine.execSettleTimerExpiry k s
  | .powerOnReset => Sys2Proof.Machine.execPowerOnReset s
  | .resetAsserted => Sys2Proof.Machine.execResetAsserted s
  | .resetReleased => Sys2Proof.Machine.execResetReleased s

end Sys2Proof.Machine
end

