-- ==== Sys2Proof/Safety.lean ====
section
/-! DEFINITION. What the statements are about: when a request is answered, runs of commands, and the invariants of the part's
blocks. -/
namespace Sys2Proof.Safety
open Sys2Proof.Machine

/-! ### Requests and runs -/

/-- A request's frame is received and decoded, and its tag is one (R142, R148, R151): the part is not held in reset, the reply
list has room, and the tag is at most 7. -/
abbrev MayAnswer (tag : Byte) (s : State) : Prop :=
  s.pins.reset = false ∧ s.link.replies.length < 8 ∧ tag.toNat ≤ 7

/-- The state a request's owner is given: its frame has restarted supervision (R148, R149). -/
abbrev heard (s : State) : State := restartSupervision s

/-- A request ends with its reply joining the reply list (R152, R153). -/
abbrev replied (type tag : Byte) (status : Status) (content : List Byte) (s : State) : Result :=
  .next (addReply { type := type, tag := tag, status := status, content := content } s)

/-- Several commands one after another, up to the first that stops. -/
def execAll : List Instr → State → Result
  | [], s => .next s
  | i :: rest, s =>
    match exec i s with
    | .next t => execAll rest t
    | .fault f => .fault f
    | .refused r => .refused r

/-! ### Move engines (R85, R87, R89, R104) -/

/-- A target inside a stand's window. -/
def inWindow (c : StandCfg) (x : Int) : Prop := c.gapMin ≤ x ∧ x ≤ c.gapMax

/-- A ramp never takes more updates than its distance needs: before the last update more than the steps of all but the last
remain. -/
def onRamp (ref : Int) (a : Active) : Prop :=
  a.remaining = 0 ∨ (a.remaining - 1) * a.move.step < (a.move.target - ref).natAbs

/-- A move that waits: SETUP or LINK, with its target in the window. -/
def mayWait (c : StandCfg) (m : Move) : Prop := (m.origin = .setup ∨ m.origin = .link) ∧ inWindow c m.target

/-- An engine whose reference is in its window and stays there whatever its moves do. -/
structure EngineOk (e : Engine) : Prop where
  window : e.cfg.gapMin + 1000 ≤ e.cfg.gapMax
  ref : inWindow e.cfg e.ref
  active : ∀ a, e.act.active? = some a → inWindow e.cfg a.move.target ∧ onRamp e.ref a
  pending : ∀ m ∈ e.pending, mayWait e.cfg m
  room : e.pending.length ≤ 4

/-- R85: every stand's gap reference lies in that stand's window. -/
def EnginesOk (s : State) : Prop := ∀ k, EngineOk (s.eng.get k)

/-- R89: an engine that has started a move: RAMPING with the fewest updates that cover the distance, or SETTLING where there is
none. -/
def Started (e : Engine) (m : Move) (e' : Engine) : Prop :=
  ∃ n : Nat, (m.target - e.ref).natAbs ≤ n * m.step ∧ (n = 0 ∨ (n - 1) * m.step < (m.target - e.ref).natAbs) ∧
    e' =
      if n = 0 then { e with act := .settling { move := m, remaining := 0 }, settleLeft := some e.cfg.settleTime }
      else { e with act := .ramping { move := m, remaining := n }, settleLeft := none }

/-! ### The slot table (R88) -/

/-- The moves of an engine, active first. -/
def movesOf (e : Engine) : List Move := (e.act.active?.map Active.move).toList ++ e.pending

/-- The tags of an engine's moves. -/
def tagsOf (e : Engine) : List Tag := (movesOf e).filterMap Move.tag

/-- R88: a tag's slot is held exactly when one LINK move with that tag exists, at the stand the slot names. -/
structure SlotsOk (s : State) : Prop where
  links : ∀ k, ∀ m ∈ movesOf (s.eng.get k), m.tag.isSome ↔ m.origin = .link
  held : ∀ t k, s.slots.get t = some k ↔ t ∈ tagsOf (s.eng.get k)
  once : ∀ k, (tagsOf (s.eng.get k)).Nodup

/-! ### Gauge control (R71, R81) -/

/-- R71, R81: every AGC state is the one the table derives, and m is within its limits and 0 without a reference. -/
structure GaugeOk (s : State) : Prop where
  derived : ∀ k, (s.gauge.stands.get k).st = agcStateOf s k
  trim : -2000 ≤ s.gauge.m ∧ s.gauge.m ≤ 2000
  noTrim : s.gauge.stands.s6.href = none → s.gauge.m = 0

/-! ### Trips (R108 to R132) -/

/-- R111 to R122: one source record. -/
structure SourceOk (ceiling : Nat) (r : SourceRec) : Prop where
  priority : r.priority ≤ 7
  stop : r.action = .stop → r.priority = 0 ∧ r.masked = false
  retract : r.action = .retract → r.priority ≤ 1 ∧ r.masked = false
  masked : r.masked = true → r.st = .quiet
  quiet : r.st = .quiet → r.acted = false
  pending : r.st = .pending → r.priority < ceiling → r.acted = true
  service : r.st = .inService → r.acted = true
  rep : r.rep = true → r.st = .inService

/-- R108, R116: the sources, the ceiling and the in-service stack. -/
structure TripsOk (t : Trips) : Prop where
  source : ∀ x, SourceOk t.ceiling (t.src.get x)
  ceiling : 2 ≤ t.ceiling ∧ t.ceiling ≤ 8
  members : ∀ x, x ∈ t.stack ↔ (t.src.get x).st = .inService
  rising : t.stack.Pairwise fun a b => (t.src.get a).priority < (t.src.get b).priority

/-- R128, R132: the action sets hold one entry for each acted source, and the STOP line is asserted while a STOP source is
acted. -/
structure ActionsOk (s : State) : Prop where
  trips : TripsOk s.trips
  entry : ∀ k x a, ({ source := x, action := a } : Entry) ∈ s.ilk.sets.get k ↔
    (s.trips.src.get x).acted = true ∧ (s.trips.src.get x).action = a ∧ k ∈ scope x
  once : ∀ k, (s.ilk.sets.get k).Nodup
  line : ∀ x, (s.trips.src.get x).action = .stop → (s.trips.src.get x).acted = true → s.ilk.stop = true

/-- R118, R142: out of reset, ATTN is asserted exactly while TAKE_TRIP would select a source. -/
def AttnOk (s : State) : Prop := s.pins.reset = false → s.link.attn = (selected s).isSome

/-- R1, R109, R110: the inputs the trip controller keeps are what the channel unit and the tracking unit hold, and the live
conditions of sources 13 to 15 are what it derives from them. A channel that is not enabled is OFF. -/
structure InputsOk (s : State) : Prop where
  off : ∀ c, (s.chan.recs.get c).enabled = false → (s.chan.recs.get c).st = .off
  chan : ∀ c, s.trips.inputs.chan.get c = (s.chan.recs.get c).st
  exitKind : s.trips.inputs.exitKind = s.trk.underExit.map Seg.kind
  strip : s.trips.inputs.strip = s.trk.strip
  exitGauge : s.trips.src.exitGauge.live = s.trips.exitGaugeCond
  entryGauge : s.trips.src.entryGauge.live = s.trips.entryGaugeCond
  channelFault : s.trips.src.channelFault.live = s.trips.channelFaultCond

/-! ### Capacities (R24, R25, R51, R53, R148, R163) -/

/-- R24, R25, R51, R53, R148, R163: no store is over-full, and a coil being admitted leaves a record for its TAIL. -/
structure RoomOk (s : State) : Prop where
  reports : s.link.reports.length ≤ 32
  replies : s.link.replies.length ≤ 8
  schedules : s.sched.queue.length ≤ 4
  coils : s.sched.coils.length ≤ 4
  pool : s.trk.used ≤ 64
  tail : s.trk.entry = .admitted → s.trk.used ≤ 63

/-- R53, log 8: the coil table is in the order of admission, which the model's keys follow. -/
structure CoilsOk (d : SchedStore) : Prop where
  order : d.coils.Pairwise fun a b => a.key < b.key
  given : ∀ c ∈ d.coils, c.key < d.nextKey

/-! ### Span queues (R26) -/

/-- R26, R34: in every span queue the distances to go never decrease from front to back, and none is above the span's
length. -/
structure QueuesOk (t : Tracking) : Prop where
  order : ∀ k, (t.queues.get k).Pairwise fun a b => a.dist ≤ b.dist
  length : ∀ k, ∀ q ∈ t.queues.get k, q.dist ≤ (t.spanLen.get k : Int)

end Sys2Proof.Safety
end

