-- ==== Sys2Proof/Certificates/Slice0/Obligations.lean ====
section
/-! DEFINITION. The statements for the provers, by chapter of the spec. -/
open Sys2Proof Sys2Proof.Machine Sys2Proof.Safety

/-! ### Steps and commands -/

/-- A step takes the command at the front of the queue and runs it with the queue's rest (the model's queue, log 15). -/
def Obligations.StepRunsFrontCommand : Prop :=
  ∀ (c : Instr) (rest : List Instr) (s : State), s.pending = c :: rest → step s = exec c { s with pending := rest }

/-- Log 2 (the model's choice): a step on an empty queue is a millisecond; while held in reset it is nothing. The time left on
each running timer falls by one, the byte-gap timer's is used up, and nothing else changes. -/
def Obligations.IdleStepLetsTimersRun : Prop :=
  ∀ s : State, s.pending = [] →
    (s.pins.reset = true → step s = .next s) ∧
    (s.pins.reset = false → ∃ t, step s = .next t ∧
      (∀ c, t.chan.recs.get c =
        { s.chan.recs.get c with staleLeft := (s.chan.recs.get c).staleLeft.map (· - 1) }) ∧
      (∀ k, t.eng.get k = { s.eng.get k with settleLeft := (s.eng.get k).settleLeft.map (· - 1) }) ∧
      (∀ e, t.ilk.estop.get e = { s.ilk.estop.get e with timer := (s.ilk.estop.get e).timer.map (· - 1) }) ∧
      t = { s with
        chan := { s.chan with recs := t.chan.recs }
        eng := t.eng
        ilk := { s.ilk with estop := t.ilk.estop }
        trk := { s.trk with stripTimer := s.trk.stripTimer.map (· - 1) }
        link := { s.link with supLeft := s.link.supLeft.map (· - 1), gapLeft := s.link.gapLeft.map fun _ => 0 } })

/-- Every well-formed command ends in a next state in every state; the two ill-formed forms of UNKNOWN_REQUEST are refused by name
(log 17). No command adds to or takes from the queue of waiting commands (log 15), and only the two input changes and the edges of RESET
change what the model holds of the lines. -/
def Obligations.CommandsCompleteAndLeaveQueue : Prop :=
  (∀ (c : Instr) (s : State), c.wf = true → ∃ t, exec c s = .next t ∧ t.pending = s.pending ∧
    t.pins.straps = s.pins.straps ∧
    (t.pins ≠ s.pins → (∃ b, c = .stripPresentChange b) ∨ (∃ e b, c = .estopInputChange e b) ∨ c = .resetAsserted ∨
      c = .resetReleased)) ∧
  (∀ (type tag : Byte) (p : List Byte) (s : State), isRequestType type = true →
    exec (.unknownRequest type tag p) s = .refused .typeIsARequest) ∧
  (∀ (type tag : Byte) (p : List Byte) (s : State), isRequestType type = false → 240 < p.length →
    exec (.unknownRequest type tag p) s = .refused .payloadTooLong)

/-! ### The control link -/

/-- R166, R167: a request's bytes determine it. Whatever the fields of a well-formed request, its payload has the size the
table gives its type, and reading the payload back gives the same request. -/
def Obligations.RequestsRoundTrip : Prop :=
  ∀ (i : Instr) (type tag : Byte) (p : List Byte), i.wf = true → requestParts? i = some (type, tag, p) →
    requestOf type tag p = i ∧ p.length ≤ 240 ∧
      payloadSize? type = if isRequestType type then some p.length else none

/-- R144 to R148, R166: the bytes of a request's frame, received one after another from HUNT, do what the request's command
does. Log 4 says that a request command stands for such a frame. -/
def Obligations.ReceivedFrameIsItsRequest : Prop :=
  ∀ (i : Instr) (type tag : Byte) (p : List Byte) (s : State), i.wf = true → requestParts? i = some (type, tag, p) →
    s.pins.reset = false → s.link.rx = .hunt →
    execAll ((frame type tag p).map .receiveByte) s = exec i { s with link := { s.link with gapLeft := none } }

/-- R145, R146, R147: what the receiver does with each byte in each of its states, with a line break, and with the running out of the
byte-gap timer; with the timer stopped BYTE_GAP_EXPIRY changes nothing (log 3, the model's choice). -/
def Obligations.ReceiverTakesEachByte : Prop :=
  ∀ (b : Byte) (s : State), s.pins.reset = false →
    let goes (rx : Rx) (gap : Option Nat) : State := { s with link := { s.link with rx := rx, gapLeft := gap } }
    (s.link.rx = .hunt →
      (b = 0xD5#8 → exec (.receiveByte b) s = .next (goes .length (some 32))) ∧
      (b ≠ 0xD5#8 → exec (.receiveByte b) s = .next s)) ∧
    (s.link.rx = .length →
      (2 ≤ b.toNat → b.toNat ≤ 242 → exec (.receiveByte b) s = .next (goes (.body b.toNat []) (some 32))) ∧
      (b.toNat < 2 ∨ 242 < b.toNat → exec (.receiveByte b) s = .next (goes .hunt none))) ∧
    (∀ len got, s.link.rx = .body len got →
      (got.length + 1 ≠ len → exec (.receiveByte b) s = .next (goes (.body len (got ++ [b])) (some 32))) ∧
      (got.length + 1 = len → exec (.receiveByte b) s = .next (goes (.check len (got ++ [b]) none) (some 32)))) ∧
    (∀ len got, s.link.rx = .check len got none →
      exec (.receiveByte b) s = .next (goes (.check len got (some b)) (some 32))) ∧
    (∀ len got high, s.link.rx = .check len got (some high) →
      (crc (BitVec.ofNat 8 len :: got) = high ++ b →
        exec (.receiveByte b) s = .next (frameReceived got (goes .hunt none))) ∧
      (crc (BitVec.ofNat 8 len :: got) ≠ high ++ b → exec (.receiveByte b) s = .next (goes .hunt none))) ∧
    (s.link.rx ≠ .hunt → exec .lineBreak s = .next (goes .hunt none)) ∧
    (s.link.rx = .hunt → exec .lineBreak s = .next s) ∧
    (s.link.gapLeft ≠ none → exec .byteGapExpiry s = .next (goes .hunt none)) ∧
    (s.link.gapLeft = none → exec .byteGapExpiry s = .next s)

/-- R148, R149, R151, R152: the decoder's common checks in their order: the type, the payload's size, the tag; then the request's owner. A
request's frame restarts a running supervision timer with the supervision time, and does nothing else when the reply list is full; that
a request's command does so is log 4's inference. -/
def Obligations.DecoderChecksInOrder : Prop :=
  ∀ (type tag : Byte) (p : List Byte) (s : State),
    (isRequestType type = false →
      decodeFrame type tag p s = addReply { type := type, tag := tag, status := .unknownType, content := [] } s) ∧
    (∀ n, payloadSize? type = some n → p.length ≠ n →
      decodeFrame type tag p s = addReply { type := type, tag := tag, status := .badLength, content := [] } s) ∧
    (payloadSize? type = some p.length → 7 < tag.toNat →
      decodeFrame type tag p s = addReply { type := type, tag := tag, status := .range, content := [] } s) ∧
    (payloadSize? type = some p.length → tag.toNat ≤ 7 →
      let a := ownerOf (requestOf type tag p) s
      decodeFrame type tag p s =
        a.followUp (addReply { type := type, tag := tag, status := a.status, content := a.content } a.state)) ∧
    (isRequestType type = (payloadSize? type).isSome) ∧
    (s.pins.reset = false →
      (s.link.replies.length < 8 → isRequestType type = false → p.length ≤ 240 →
        exec (.unknownRequest type tag p) s = replied type tag .unknownType [] (heard s)) ∧
      (∀ i, i.wf = true → requestParts? i = some (type, tag, p) →
        (s.link.replies.length < 8 → isRequestType type = true → 7 < tag.toNat →
          exec i s = replied type tag .range [] (heard s)) ∧
        (8 ≤ s.link.replies.length → exec i s = .next (heard s)) ∧
        heard s = { s with link := { s.link with supLeft :=
          if s.link.supLeft.isSome ∧ s.link.supTime ≠ 0 then some s.link.supTime else none } }))

/-- R153, R164: a reply joins the back of the reply list, and an idle transmitter begins a frame as soon as one waits (log 5's inference). At
TRANSMIT_DONE, taken whether or not a frame was in transmission (log 3, the model's choice), it sends the oldest frame of the only
kind that waits. Of two kinds it sends the report at the first such choice since the reset, and otherwise the kind it did not send
last. A reply's place is free as its frame begins (log 18, the model's choice). A report is given the lost mark, which is then
cleared. -/
def Obligations.TransmitterAlternates : Prop :=
  ∀ s : State, s.pins.reset = false →
    (s.link.replies = [] → s.link.reports = [] →
      exec .transmitDone s = .next { s with link := { s.link with sending := none } }) ∧
    (∀ r rs, s.link.replies = r :: rs →
      (s.link.reports = [] ∨ (s.link.firstChoice = false ∧ s.link.lastSent = .report)) →
      exec .transmitDone s =
        .next { s with link := { s.link with replies := rs, sending := some r.frame, lastSent := .reply } }) ∧
    (∀ q qs, s.link.reports = q :: qs →
      (s.link.replies = [] ∨ s.link.firstChoice = true ∨ s.link.lastSent = .reply) →
      exec .transmitDone s =
        .next { s with link := { s.link with
          reports := qs, sending := some (q.frame s.link.lost), lost := false, lastSent := .report,
          firstChoice := s.link.firstChoice && s.link.replies.isEmpty } }) ∧
    (∀ r, s.link.sending.isSome = true →
      addReply r s = { s with link := { s.link with replies := s.link.replies ++ [r] } }) ∧
    (∀ r, s.link.sending = none → s.link.replies = [] → s.link.reports = [] →
      addReply r s = { s with link := { s.link with sending := some r.frame, lastSent := .reply } }) ∧
    (∀ r, s.link.sending = none →
      .next (addReply r s) = exec .transmitDone { s with link := { s.link with replies := s.link.replies ++ [r] } })

/-- R163: how the report queue takes a report it is offered, by its fill. -/
def Obligations.ReportQueueKeepsTrips : Prop :=
  ∀ (l : Link) (r : Report),
    (r.isTrip = true ↔ r.type = 0x81#8) ∧
    (l.reports.length < 32 → l.offer r = { l with reports := l.reports ++ [r] }) ∧
    (l.reports.length = 32 → r.isTrip = true → ∀ pre q post, l.reports = pre ++ q :: post →
      (∀ p ∈ pre, p.isTrip = true) → q.isTrip = false →
      l.offer r = { l with reports := pre ++ post ++ [r], lost := true }) ∧
    (l.reports.length = 32 → r.isTrip = true → (∀ p ∈ l.reports, p.isTrip = true) →
      l.offer r = { l with lost := true }) ∧
    (l.reports.length = 32 → r.isTrip = false → l.offer r = { l with lost := true }) ∧
    (∀ s : State, report r s = { s with link := (s.link.offer r).pump })

/-- R144, R145, R164, R166, R167, R169: the frame of each report, byte by byte: the start and length bytes, its kind's type, the
tag 255, the flags byte with the lost mark, its kind's fields in order, marks and sets as bits of one byte with bit 0 the least
significant, absent values as zeros, and the check over all from the length byte to the last payload byte, high byte first; and
the codes those fields carry. -/
def Obligations.ReportFramesHaveOneSize : Prop :=
  (∀ (r : Report) (lost : Bool),
    let marks (set : List (Nat × Bool)) : List Byte := be1 (set.map fun m => if m.2 then 2 ^ m.1 else 0).sum
    let type : Byte := match r with
      | .started .. => 0x80
      | .tripRaised .. => 0x81
      | .moveDone .. => 0x82
      | .segment .. => 0x83
      | .channelState .. => 0x84
      | .coilEnd .. => 0x85
    let size : Nat := match r with
      | .started .. => 2
      | .tripRaised .. => 5
      | .moveDone .. => 10
      | .segment .. => 27
      | .channelState .. => 4
      | .coilEnd .. => 8
    let fields : List Byte := match r with
      | .started cause => [cause.code]
      | .tripRaised x priority action eligible acted =>
        be1 x.num ++ be1 priority ++ [action.code] ++ marks [(0, eligible), (1, acted)]
      | .moveDone k tag origin status clamped ref position =>
        be1 k.num ++ (match tag with
          | some x => be1 x.num
          | none => [0xFF#8]) ++ [origin.code, status.code] ++ marks [(0, clamped), (1, position.isSome)] ++ be2 ref ++
            be2 (position.getD 0)
      | .segment g =>
        be2 g.id ++ [g.kind.code] ++ be2 g.coil ++ marks [(0, g.offGauge), (1, g.entryLen.isSome)] ++
          marks (Stand.all.map fun k => (k.num, g.lockonAt.get k)) ++
          marks (Point.all.map fun p => (p.num, (g.dev.get p).isSome)) ++ be2 (g.entryLen.getD 0) ++
          Point.all.flatMap fun p => be2 ((g.dev.get p).getD 0)
      | .channelState c st cause => be1 c.num ++ [st.code, cause.code]
      | .coilEnd number scheduled segments off => be2 number ++ [if scheduled then 1 else 0] ++ be2 segments ++ be2 off
    let checked : List Byte := [BitVec.ofNat 8 (size + 2), type, 0xFF#8, if lost then 1 else 0] ++ fields
    (r.frame lost).length = size + 6 ∧
      ∃ high low, r.frame lost = 0xD5#8 :: checked ++ [high, low] ∧ crc checked = high ++ low) ∧
  [ResetCause.power, .line, .restart].map ResetCause.code = [0, 1, 2] ∧
  [Action.alarm, .hold, .retract, .stop].map Action.code = [0, 1, 2, 3] ∧
  [Origin.setup, .link, .feedback, .retract].map Origin.code = [0, 1, 2, 3] ∧
  [MoveStatus.reached, .settleTimeout, .cancelled, .abortedTrip, .refusedTrip, .queueFull].map MoveStatus.code =
    [0, 1, 2, 3, 4, 5] ∧
  [Kind.head, .body, .tail].map Kind.code = [0, 1, 2] ∧
  [ChanState.off, .settling, .valid, .stale, .fault].map ChanState.code = [0, 1, 2, 3, 4] ∧
  [ChanCause.invalid, .outOfRange, .stale, .enable, .samples].map ChanCause.code = [0, 1, 2, 3, 4]

/-- R137, R149: the supervision timer's running out locks the part, stops the timer and hands LINK_SILENT an edge; with the timer
stopped the command changes nothing (log 3, the model's choice). -/
def Obligations.SilenceLocksAndTrips : Prop :=
  ∀ s : State, s.pins.reset = false →
    (s.link.supLeft = none → exec .supervisionExpiry s = .next s) ∧
    (s.link.supLeft ≠ none → ∃ t, exec .supervisionExpiry s = .next t ∧
      t = edge .linkSilent
        { s with ilk := { s.ilk with lockOpen := false }, link := { s.link with supLeft := none } } ∧
      t.ilk.lockOpen = false ∧ t.link.supLeft = none ∧
      ((s.trips.src.get .linkSilent).st = .quiet → (s.trips.src.get .linkSilent).masked = false →
        (s.trips.src.get .linkSilent).action = .stop → (s.trips.src.get .linkSilent).priority < s.trips.ceiling →
        t.ilk.stop = true ∧ (t.trips.src.get .linkSilent).st = .pending ∧ (t.trips.src.get .linkSilent).acted = true))

/-- R135, R149, R150: SET_LINK stores the two values as adjusted, and while the lock is OPEN starts the timer anew with the new time,
or stops it at 0. -/
def Obligations.SetLinkStoresBothTimes : Prop :=
  ∀ (tag : Byte) (sup : Word) (deb : Byte) (s : State), MayAnswer tag s →
    let t : Nat := if sup.toNat = 0 then 0 else if sup.toNat < 20 then 20 else min sup.toNat 2000
    let d : Nat := if deb.toNat < 1 then 1 else min deb.toNat 50
    let h := heard s
    exec (.setLink tag sup deb) s =
      replied 0x1B tag (if t = sup.toNat ∧ d = deb.toNat then .ok else .adjusted) (be2 t ++ be1 d)
        { h with
          ilk := { h.ilk with debounce := d }
          link := { h.link with
            supTime := t
            supLeft := if h.ilk.lockOpen then (if t = 0 then none else some t) else h.link.supLeft } }

/-- R117, R154, R156 to R162, R168: IDENTIFY, STATUS, READ_STAND, READ_CHANNEL, READ_TRIPS, READ_SEGMENT, READ_COIL and PEEK_TRIP only queue
a reply: RANGE, NOT_FOUND or NONE with no content, or OK with the items the query's rule lists, in the rule's order. Where R168 allows
two layouts, log 12 names the one taken (the model's choice). -/
def Obligations.QueriesOnlyReply : Prop :=
  ∀ (tag x : Byte) (id : Word) (s : State), MayAnswer tag s →
    let sends (i : Instr) (type : Byte) (status : Status) (content : List Byte) : Prop :=
      exec i s = replied type tag status content (heard s)
    sends (.identify tag) 0x01 .ok [0x09, 0x66, 0x17, 0x76, 0x03, s.ilk.cause.code] ∧
    sends (.status tag) 0x02 .ok
      ([bit s.ilk.lockOpen, bit s.ilk.stop] ++ be1 s.trips.ceiling ++ [bit s.link.attn] ++
        (Stand.all.flatMap fun k => [(s.eng.get k).act.code, (s.gauge.stands.get k).st.code]) ++
        (Channel.all.map fun c => (s.chan.recs.get c).st.code) ++ be1 (64 - s.trk.used : Nat) ++
        be1 s.sched.coils.length ++ be1 s.sched.queue.length ++ be1 s.link.reports.length ++ [bit s.trk.strip] ++
        EStop.all.map fun e => bit (s.ilk.estop.get e).demanded) ∧
    (Stand.ofNat? x.toNat = none → sends (.readStand tag x) 0x06 .range []) ∧
    (∀ k, Stand.ofNat? x.toNat = some k →
      let e := s.eng.get k
      let g := s.gauge.stands.get k
      let tagOf (m : Move) : List Byte := match m.tag with
        | some t => 1 :: be1 t.num
        | none => [0, 0]
      let active : List Byte := match e.act.active? with
        | none => List.replicate 13 0
        | some a => 1 :: ([a.move.origin.code] ++ be2 a.move.target ++ be2 a.move.step ++ be2 a.remaining ++ tagOf a.move ++
            [bit a.move.clamped] ++ match e.act with
              | .held _ p => [1, p.code]
              | _ => [0, 0])
      let count (a : Action) : Nat := (s.ilk.sets.get k).countP fun y => y.action == a
      sends (.readStand tag x) 0x06 .ok
        (be2 e.ref ++ [e.act.code, bit e.retracted] ++ be1 e.posErr ++ active ++ be1 e.pending.length ++
          (e.pending.flatMap fun m =>
            [m.origin.code] ++ be2 m.target ++ be2 m.step ++ tagOf m ++ [bit m.clamped]) ++
          [g.mode.code, g.st.code] ++ optional 2 be2 g.href ++ be2 g.lockonCount ++ [bit g.stepLimited, bit g.atLimit] ++
          (if k = .s6 then 1 :: be2 s.gauge.m else [0, 0, 0]) ++
          (be1 (count .alarm) ++ be1 (count .hold) ++ be1 (count .retract) ++ be1 (count .stop)))) ∧
    (Channel.ofNat? x.toNat = none → sends (.readChannel tag x) 0x04 .range []) ∧
    (∀ c, Channel.ofNat? x.toNat = some c →
      let r := s.chan.recs.get c
      let comparators : List Byte := match c with
        | .force k => [1, bit (s.chan.biteIn.get k), 1, bit (s.chan.overload.get k)]
        | _ => [0, 0, 0, 0]
      sends (.readChannel tag x) 0x04 .ok
        ([bit r.enabled] ++ be2 r.zero ++ be2 r.span ++ be4 r.lo ++ be4 r.hi ++ be1 r.n ++ be2 r.staleTime ++ [r.st.code] ++
          be1 r.filter.length ++ r.filter.flatMap be4 ++ optional 4 be4 r.filtered ++ optional 4 be4 r.last ++
          be1 r.invalidCount ++ be1 r.rangeCount ++ optional 2 (fun t : Nat => be2 t) r.staleLeft ++ comparators)) ∧
    sends (.readTrips tag) 0x13 .ok
      ((Source.all.flatMap fun y =>
          let r := s.trips.src.get y
          [r.mode.code] ++ be1 r.priority ++ [r.action.code, bit r.masked, r.st.code, bit r.acted, bit r.rep, bit r.live]) ++
        be1 s.trips.stack.length ++ (s.trips.stack.reverse.flatMap fun y => be1 y.num) ++ be1 s.trips.ceiling) ∧
    sends (.readCoil tag) 0x0A .ok
      (be1 s.sched.coils.length ++ (s.sched.coils.flatMap fun c =>
          be2 c.number ++ [bit c.schedule.isSome] ++ pointSet c.head ++ pointSet c.tail ++ standSet c.setup ++
            be2 c.segCount ++ be2 c.offCount) ++
        be1 s.sched.queue.length ++ be2 s.sched.lastCoil) ∧
    (4095 < id.toNat → sends (.readSegment tag id) 0x09 .range []) ∧
    (id.toNat ≤ 4095 → s.trk.find? id.toNat = none → sends (.readSegment tag id) 0x09 .notFound []) ∧
    (∀ g, id.toNat ≤ 4095 → s.trk.find? id.toNat = some g →
      let under := [bit (s.trk.under .exit == some id.toNat)] ++ pointSet (.ofFn fun p => s.trk.under p == some id.toNat)
      (∀ k ahead q behind, s.trk.queues.get k = ahead ++ q :: behind → q.seg.id = id.toNat →
        (∀ a ∈ ahead, a.seg.id ≠ id.toNat) → (∀ j, j.num < k.num → ∀ a ∈ s.trk.queues.get j, a.seg.id ≠ id.toNat) →
        sends (.readSegment tag id) 0x09 .ok
          (g.bytes ++ [1] ++ be1 k.num ++ be1 (ahead.length + 1 : Nat) ++ be2 q.dist ++ under)) ∧
      ((∀ j, ∀ a ∈ s.trk.queues.get j, a.seg.id ≠ id.toNat) →
        sends (.readSegment tag id) 0x09 .ok (g.bytes ++ [0, 0, 0, 0, 0] ++ under))) ∧
    (selected s = none → sends (.peekTrip tag) 0x14 .none []) ∧
    (∀ y, selected s = some y →
      sends (.peekTrip tag) 0x14 .ok
        (be1 y.num ++ be1 (s.trips.src.get y).priority ++ [(s.trips.src.get y).action.code] ++
          be1 s.trips.stack.length))

/-! ### Measurement channels -/

/-- R2, R3, R10, R11: a sample for a channel above 13, or for a channel in OFF or FAULT, changes nothing; a rejected sample
raises the invalid count and clears the range count, and the third puts the channel in FAULT, reported and handed on. The stale
timer's running out makes a SETTLING or VALID channel STALE, its list, values and counts kept, and is reported and handed on;
with no timer running the command changes nothing (log 3, the model's choice). -/
def Obligations.SamplesRejectedOrMissed : Prop :=
  ∀ (n : Nat) (raw : Word) (valid : Bool) (s : State), s.pins.reset = false →
    (13 < n → exec (.sample n raw valid) s = .next s) ∧
    (∀ c, Channel.ofNat? n = some c →
      let r := s.chan.recs.get c
      (r.st = .off ∨ r.st = .fault → exec (.sample n raw valid) s = .next s) ∧
      (r.st = .settling ∨ r.st = .valid ∨ r.st = .stale →
        (r.invalidCount < 2 →
          exec (.sample n raw false) s =
            .next (setChannel c { r with invalidCount := r.invalidCount + 1, rangeCount := 0 } s)) ∧
        (2 ≤ r.invalidCount →
          exec (.sample n raw false) s =
            .next (handState c (report (.channelState c .fault .invalid)
              (setChannel c { r with st := .fault, invalidCount := 3, rangeCount := 0, staleLeft := none } s))))) ∧
      ((r.st = .settling ∨ r.st = .valid) → r.staleLeft ≠ none →
        exec (.staleTimerExpiry c) s =
          .next (handState c (report (.channelState c .stale .stale)
            (setChannel c { r with st := .stale, staleLeft := none } s)))) ∧
      (r.st = .off ∨ r.st = .stale ∨ r.st = .fault ∨ r.staleLeft = none → exec (.staleTimerExpiry c) s = .next s))

/-- R4 to R9, R11, R12, R17, R38, R40: what an accepted sample makes of its channel's record, and what follows: the report of a channel that
enters VALID or FAULT and the comparators, then what is handed on: the change of state, the change of bite, the overload condition, and
the new value. No other channel's record changes. Gauge control is told of a change of state before the trip controller (log 10, the
model's choice). -/
def Obligations.AcceptedSampleUpdatesRecord : Prop :=
  ∀ (n : Nat) (c : Channel) (raw : Word) (s : State), s.pins.reset = false → Channel.ofNat? n = some c →
    let r := s.chan.recs.get c
    (r.st = .settling ∨ r.st = .valid ∨ r.st = .stale →
      let v : Int := (((raw.toNat : Int) - r.zero) * r.span).tdiv 65536
      let value := clamp r.lo r.hi v
      let out : Nat := if v < r.lo ∨ r.hi < v then min 3 (r.rangeCount + 1) else 0
      let kept := (if r.st = .stale then [] else r.filter) ++ [value]
      let list := kept.drop (kept.length - r.n)
      let r' : ChannelRec :=
        { r with
          filter := list
          filtered := if list = [] then none else some (list.sum.tdiv list.length)
          last := some value
          invalidCount := 0
          rangeCount := out
          staleLeft := if out = 3 then none else some r.staleTime
          st := if out = 3 then .fault else if r.st = .valid ∨ r.n ≤ list.length then .valid else .settling }
      let stored := setChannel c r' s
      let reported :=
        if r'.st = .fault then report (.channelState c .fault .outOfRange) stored
        else if r'.st = .valid ∧ r.st ≠ .valid then report (.channelState c .valid .samples) stored
        else stored
      let compared := match c, r'.filtered with
        | .force k, some f => if r'.st = .valid then evalComparators k f reported else reported
        | _, _ => reported
      let told := if r'.st = r.st then compared else handState c compared
      let handed := match c, r'.filtered with
        | .force k, some f =>
          let bitten :=
            if told.chan.biteIn.get k = s.chan.biteIn.get k then told
            else if s.chan.biteIn.get k then biteOutAt k told
            else biteInAt k told
          forceValue k f (condition (.overload k) (bitten.chan.overload.get k) bitten)
        | .position k, some f => positionValue k f told
        | .entry, _ => entryValue value told
        | .exit, _ => exitValue value told
        | _, none => told
      (0 < r.n → exec (.sample n raw true) s = .next (if r'.st = .valid then handed else told)) ∧
      ∃ t, exec (.sample n raw true) s = .next t ∧ t.chan.recs.get c = r' ∧
        ∀ d, d ≠ c → t.chan.recs.get d = s.chan.recs.get d) ∧
    (let told (u : State) : State := derivedConditions { u with
       trips := { u.trips with inputs := { u.trips.inputs with
         chan := u.trips.inputs.chan.set c (u.chan.recs.get c).st } } }
     handState c s = match c with
       | .force k | .position k => told (deriveAgc k s)
       | .entry | .exit => told s) ∧
    (∀ (x : Int) (d : Schedule) (g : Seg), (s.coilOf g.coilKey).bind Coil.schedule = some d → g.kind ≠ .tail →
      (s.trk.segUnder .entry = some g → entryValue x s = accumulate .entry (x - d.hNom) s) ∧
      (s.trk.underExit = some g → exitValue x s = accumulate .exit (x - d.stands.s6.h) s)) ∧
    (∀ (x : Int),
      ((∀ g, s.trk.segUnder .entry = some g → g.kind = .tail ∨ (s.coilOf g.coilKey).bind Coil.schedule = none) →
        entryValue x s = s) ∧
      ((∀ g, s.trk.underExit = some g → g.kind = .tail ∨ (s.coilOf g.coilKey).bind Coil.schedule = none) →
        exitValue x s = s))

/-- R13, R14: on a new filtered value of a force channel that is VALID after the sample, bite and overload follow the stand's
thresholds; on any other sample they keep their values, and at other stands too. -/
def Obligations.ComparatorsFollowThresholds : Prop :=
  ∀ (k : Stand) (raw : Word) (valid : Bool) (s t : State), s.pins.reset = false →
    exec (.sample (Channel.num (.force k)) raw valid) s = .next t →
    (∀ v, valid = true → (t.chan.recs.get (.force k)).st = .valid →
      (t.chan.recs.get (.force k)).filtered = some v →
      t.chan.biteIn.get k =
        (if s.chan.biteIn.get k then decide ((s.eng.get k).cfg.biteOff ≤ v) else decide ((s.eng.get k).cfg.biteOn ≤ v)) ∧
      t.chan.overload.get k = decide ((s.eng.get k).cfg.fMax < v)) ∧
    (valid = false ∨ (t.chan.recs.get (.force k)).st ≠ .valid →
      t.chan.biteIn.get k = s.chan.biteIn.get k ∧ t.chan.overload.get k = s.chan.overload.get k) ∧
    (∀ j, j ≠ k → t.chan.biteIn.get j = s.chan.biteIn.get j ∧ t.chan.overload.get j = s.chan.overload.get j)

/-- R15, R16, R167: SET_CHANNEL: a channel above 13 or an enable byte that is no code is refused with RANGE; otherwise the
configuration is stored as adjusted, N as the largest power of two up to 16 not above the value sent and 0 as 1, the running
state cleared, and the change reported and handed on. Bite and overload are left. The reply's layout is log 12's (the model's
choice). -/
def Obligations.SetChannelReplacesConfiguration : Prop :=
  ∀ (tag : Byte) (f : ChannelFields) (s : State), MayAnswer tag s →
    (13 < f.channel.toNat ∨ 1 < f.enable.toNat →
      exec (.setChannel tag f) s = replied 0x03 tag .range [] (heard s)) ∧
    (∀ c, Channel.ofNat? f.channel.toNat = some c → f.enable.toNat ≤ 1 →
      let full : Int × Int := match c with
        | .force _ => (-2000, 60000)
        | _ => (0, 30000)
      let on : Bool := f.enable.toNat = 1
      let lo := clamp full.1 full.2 f.lo.toInt
      let hi := max lo (clamp full.1 full.2 f.hi.toInt)
      let st := clampNat 1 1000 f.staleTime.toNat
      ∃ n : Nat, n ∈ [1, 2, 4, 8, 16] ∧ n ≤ max 1 f.n.toNat ∧ (∀ m ∈ [1, 2, 4, 8, 16], m ≤ f.n.toNat → m ≤ n) ∧
      let r : ChannelRec :=
        { enabled := on, zero := f.zero.toNat, span := max 1 f.span.toNat, lo := lo, hi := hi, n := n, staleTime := st,
          st := if on then .settling else .off, filter := [], filtered := none, last := none, invalidCount := 0,
          rangeCount := 0, staleLeft := if on then some st else none }
      let same : Bool := 1 ≤ f.span.toNat ∧ lo = f.lo.toInt ∧ hi = f.hi.toInt ∧ n = f.n.toNat ∧ st = f.staleTime.toNat
      exec (.setChannel tag f) s =
        replied 0x03 tag (if same then .ok else .adjusted)
          ([if on then 1 else 0] ++ be2 r.zero ++ be2 r.span ++ be4 lo ++ be4 hi ++ be1 n ++ be2 st)
          (handState c (report (.channelState c r.st .enable) (setChannel c r (heard s)))))

/-! ### Length counting and strip tracking -/

/-- R20, R21: a pulse below the prescaler only raises the tally. The pulse that reaches it, and the COUNT that says the tally has
reached it (log 3), sets the tally to 0 and adds the length per count to the remainder; the whole millimetres make one length
event, and less than one makes none. -/
def Obligations.PulsesBecomeMillimetres : Prop :=
  ∀ (k : Span) (s : State), s.pins.reset = false →
    let c := s.counters.get k
    let total := c.rest + c.perCount
    let counted : State := { s with counters := s.counters.set k { c with tally := 0, rest := total % 1000 } }
    let after : State := if total < 1000 then counted else lengthEvent k (total / 1000) counted
    (c.tally + 1 < c.prescaler →
      exec (.pulse k) s = .next { s with counters := s.counters.set k { c with tally := c.tally + 1 } }) ∧
    (c.prescaler ≤ c.tally + 1 → exec (.pulse k) s = .next after) ∧
    exec (.count k) s = .next after

/-- R31, R33, R42, R45: a length event lowers the watches it drives, or ends them with an edge of STRIP_LOST; then brings every record of its
span nearer; then the records that have reached the end of the span arrive, oldest first, each with its overshoot, until the span is
empty or its front record is still on its way; then, in span 0, the entry distance is seen to. Forced arrivals have no overshoot and start
no watch. An event that reaches nothing changes distances and watches alone. -/
def Obligations.LengthEventDrivesWatchesAndArrivals : Prop :=
  ∀ (k : Span) (d : Nat) (s : State),
    (let afterHead : State := match k.downstream with
       | .stand j => (match s.trk.headWatch.get j with
         | some r =>
           if r ≤ d then edge .stripLost { s with trk := { s.trk with headWatch := s.trk.headWatch.set j none } }
           else { s with trk := { s.trk with headWatch := s.trk.headWatch.set j (some (r - d)) } }
         | none => s)
       | _ => s
     let afterTail : State := match k with
       | .after j => (match afterHead.trk.tailWatch.get j with
         | some r =>
           if r ≤ d then
             edge .stripLost { afterHead with
               trk := { afterHead.trk with tailWatch := afterHead.trk.tailWatch.set j none } }
           else { afterHead with trk := { afterHead.trk with tailWatch := afterHead.trk.tailWatch.set j (some (r - d)) } }
         | none => afterHead)
       | .entry => afterHead
     let nearer : State := { afterTail with trk := { afterTail.trk with
       queues := afterTail.trk.queues.set k
         ((afterTail.trk.queues.get k).map fun q => { q with dist := q.dist - d }) } }
     let arrived := arriveReached k (nearer.trk.queues.get k).length nearer
     lengthEvent k d s = if k = .entry then entryLength d arrived else arrived) ∧
    (∀ n q rest, s.trk.queues.get k = q :: rest →
      let without : State := { s with trk := { s.trk with queues := s.trk.queues.set k rest } }
      let arrives (past : Int) (byLength : Bool) : State := match k.downstream with
        | .stand j => arriveAtStand j q.seg past byLength without
        | _ => arriveAtExit q.seg without
      (q.dist ≤ 0 → arriveReached k (n + 1) s = arriveReached k n (arrives (-q.dist) true)) ∧
      (0 < q.dist → arriveReached k n s = s) ∧
      forceArrivals k (n + 1) s = forceArrivals k n (arrives 0 false) ∧ forceArrivals k 0 s = s) ∧
    (∀ n, s.trk.queues.get k = [] → arriveReached k n s = s ∧ forceArrivals k n s = s) ∧
    (∀ q, ((arriveReached k (s.trk.queues.get k).length s).trk.queues.get k).head? = some q → 0 < q.dist) ∧
    ((∀ q ∈ s.trk.queues.get k, (d : Int) < q.dist) →
      (∀ j r, k.downstream = .stand j → s.trk.headWatch.get j = some r → d < r) →
      (∀ j r, k = .after j → s.trk.tailWatch.get j = some r → d < r) →
      (k = .entry → s.trk.entry ≠ .admitted) →
      ∃ t, lengthEvent k d s = { s with trk := t } ∧
        t = { s.trk with queues := t.queues, headWatch := t.headWatch, tailWatch := t.tailWatch } ∧
        (∀ j, t.queues.get j =
          if j = k then (s.trk.queues.get j).map fun q => { q with dist := q.dist - d } else s.trk.queues.get j) ∧
        (∀ j, t.headWatch.get j =
          if k.downstream = .stand j then (s.trk.headWatch.get j).map (· - d) else s.trk.headWatch.get j) ∧
        (∀ j, t.tailWatch.get j =
          if k = .after j then (s.trk.tailWatch.get j).map (· - d) else s.trk.tailWatch.get j))

/-- R34, R35, R42, R45, R46: the arrival of a record at a stand, in the rule's steps. It joins the back of the next span, at the largest of the
span's length less the overshoot, 0 and the distance of the record ahead of it; the stand's accumulator is closed; it becomes the
record under the stand; a HEAD or TAIL marks its coil's progress; at a blocked stand it is marked OFF_GAUGE; an arrival by length starts the
watches; gauge control is told, and after a TAIL the schedule store. The records of every span keep their places and distances. -/
def Obligations.ArrivalEntersNextSpan : Prop :=
  ∀ (k : Stand) (g : Seg) (past : Int) (byLength : Bool) (s : State),
    let places (t : State) (j : Span) : List (Nat × Int) := (t.trk.queues.get j).map fun q => (q.seg.id, q.dist)
    let own : Int := max ((s.trk.spanLen.get (.after k) : Int) - past) 0
    let dist : Int := match ((s.trk.queues.get (.after k)).map Queued.dist).getLast? with
      | some d => max own d
      | none => own
    let closed : Tracking := Tracking.closeAcc
      { s.trk with
        queues := s.trk.queues.set (.after k) (s.trk.queues.get (.after k) ++ [{ seg := g, dist := dist }]) } (.stand k)
    let progress (c : Coil) : Coil :=
      if c.key = g.coilKey then (match g.kind with
        | .head => { c with head := c.head.set (.stand k) true }
        | .tail => { c with tail := c.tail.set (.stand k) true }
        | .body => c)
      else c
    let marked : Tracking :=
      if s.blocked k then closed.mapSeg g.id fun r => { r with offGauge := true } else closed
    let entered : State := { s with
      trk := { marked with underStand := s.trk.underStand.set k (some g.id) }
      sched := { s.sched with coils := s.sched.coils.map progress } }
    let watched : State := match byLength, g.kind, s.chan.biteIn.get k with
      | true, .head, false =>
        { entered with trk := { entered.trk with headWatch := s.trk.headWatch.set k (some s.trk.headWindow) } }
      | true, .head, true =>
        if (s.trk.tailWatch.get k).isSome then
          edge .stripLost { entered with trk := { entered.trk with tailWatch := s.trk.tailWatch.set k none } }
        else entered
      | true, .tail, true =>
        { entered with trk := { entered.trk with tailWatch := s.trk.tailWatch.set k (some s.trk.tailWindow) } }
      | _, _, _ => entered
    let t := arriveAtStand k g past byLength s
    places t (.after k) = places s (.after k) ++ [(g.id, dist)] ∧
      (∀ j, j ≠ .after k → places t j = places s j) ∧
      t.trk.underStand.get k = some g.id ∧
      (∀ j, j ≠ k → t.trk.underStand.get j = s.trk.underStand.get j) ∧
      t.trk.acc.get (.stand k) = { sum := 0, count := 0 } ∧
      t =
        (let gauged := arrivalAtGauge k ((watched.trk.find? g.id).getD g) watched
         if g.kind = .tail then setupAtTail k g.coilKey gauged else gauged)

/-- R30, R38, R41: an accumulator takes a sample unless its count stands at 65,535. Closing a point's accumulator writes the truncated, clamped mean into the record under the point, if there is one and a
sample was taken, and clears the accumulator; no other deviation changes. A birth closes point 0's so into the HEAD or BODY under
the point, and gives it its entry length. -/
def Obligations.ClosingWritesMeanDeviation : Prop :=
  ∀ (p : Point) (t : Tracking),
    let a := t.acc.get p
    let mean : Int := clamp (-5000) 5000 (a.sum.tdiv a.count)
    (t.closeAcc p).acc = t.acc.set p { sum := 0, count := 0 } ∧
    (∀ id, t.under p = some id → 0 < a.count →
      (t.closeAcc p).segs = t.segs.map fun g => if g.id = id then { g with dev := g.dev.set p (some mean) } else g) ∧
    (t.under p = none ∨ a.count = 0 → (t.closeAcc p).segs = t.segs) ∧
    (∀ g, p = .entry → t.segUnder .entry = some g → g.kind ≠ .tail →
      (closeAtEntry t).segs = t.segs.map fun r =>
        if r.id = g.id then
          { r with dev := if 0 < a.count then r.dev.set .entry (some mean) else r.dev, entryLen := some t.entryDist }
        else r) ∧
    (∀ (x : Int) (s : State), s.trk = t →
      (a.count < 65535 → accumulate p x s =
        { s with trk := { t with acc := t.acc.set p { sum := a.sum + x, count := a.count + 1 } } }) ∧
      (65535 ≤ a.count → accumulate p x s = s))

/-- R28, R134, R135: a change of a debounced input's raw level starts its timer with the debounce time when the level then differs from the
debounced state, and stops it when they agree; the same level again changes nothing. An E-stop timer's running out gives the debounced state the line's level
and hands it on as the condition of the input's source; with the timer stopped the command changes nothing (log 3, the model's
choice). -/
def Obligations.RawInputChangesStartDebounce : Prop :=
  ∀ (b : Bool) (e : EStop) (s : State), s.pins.reset = false →
    (s.pins.strip = b → exec (.stripPresentChange b) s = .next s) ∧
    (s.pins.strip ≠ b → exec (.stripPresentChange b) s =
      .next { s with
        pins := { s.pins with strip := b }
        trk := { s.trk with stripTimer := if b = s.trk.strip then none else some s.trk.debounce } }) ∧
    (s.pins.estopLow.get e = b → exec (.estopInputChange e b) s = .next s) ∧
    (s.pins.estopLow.get e ≠ b →
      let r := s.ilk.estop.get e
      let r' : EStopRec := { r with timer := if b = r.demanded then none else some s.ilk.debounce }
      exec (.estopInputChange e b) s =
        .next { s with
          pins := { s.pins with estopLow := s.pins.estopLow.set e b }
          ilk := { s.ilk with estop := s.ilk.estop.set e r' } }) ∧
    ((s.ilk.estop.get e).timer = none → exec (.estopDebounceExpiry e) s = .next s) ∧
    ((s.ilk.estop.get e).timer ≠ none →
      let settled : EStopRec := { demanded := s.pins.estopLow.get e, timer := none }
      exec (.estopDebounceExpiry e) s =
        .next (condition (.estop e) (s.pins.estopLow.get e)
          { s with ilk := { s.ilk with estop := s.ilk.estop.set e settled } }))

/-- R28, R29, R30, R54, R55, R58: a debounced rising at an EMPTY entry with room in the coil table and two free records admits a
coil: it is the newest in the table, bound to the oldest schedule if there is one and numbered by it or one above the last
number, and its HEAD is born at the back of span 0. A scheduled coil gets its setup marks and moves at exactly the stands that
every earlier coil's TAIL has reached. Then strip is handed to the trip controller. Log 10 gives the order of the blocks, and
log 8 the keys of `CoilsOk`. -/
def Obligations.StripRisingAdmitsCoil : Prop :=
  ∀ s : State, s.pins.reset = false → s.trk.stripTimer ≠ none → s.pins.strip = true → s.trk.strip = false →
    s.trk.entry = .empty → s.sched.coils.length < 4 → s.trk.used ≤ 62 → CoilsOk s.sched →
    let number : Nat := match s.sched.queue with
      | d :: _ => d.coil
      | [] => (s.sched.lastCoil + 1) % 65536
    let new : Coil :=
      { key := s.sched.nextKey, number := number, schedule := s.sched.queue.head?, head := .fill false, tail := .fill false,
        setup := .fill false, segCount := 0, offCount := 0 }
    let admitted : State := { s with
      trk := { s.trk with strip := true, stripTimer := none }
      sched := { queue := s.sched.queue.tail, coils := s.sched.coils ++ [new], lastCoil := number,
                 nextKey := s.sched.nextKey + 1 } }
    let born := birth .head admitted
    let t := tripStrip true { born with trk := { born.trk with entry := .admitted } }
    let free (k : Stand) : Bool := s.sched.coils.all fun d => d.tail.get (.stand k)
    exec .stripPresentDebounceExpiry s = .next t ∧
      t.trk.strip = true ∧ t.trk.stripTimer = none ∧ t.trk.entry = .admitted ∧
      t.sched = { admitted.sched with coils := s.sched.coils ++ [{ new with
        segCount := 1
        head := (PerPoint.fill false).set .entry true
        setup := .ofFn fun k => s.sched.queue.head?.isSome && free k }] } ∧
      (∀ k, born.eng.get k = (match s.sched.queue.head? with
        | some d => if free k then (issueSetup k (d.stands.get k).gap s).eng.get k else s.eng.get k
        | none => s.eng.get k)) ∧
      (∃ q, (t.trk.queues.get .entry).getLast? = some q ∧ q.dist = (s.trk.spanLen.get .entry : Int) ∧
        q.seg.id = s.trk.nextId ∧ q.seg.kind = .head ∧ q.seg.coil = number) ∧
      t.trk.underEntry = some s.trk.nextId ∧ t.trk.nextId = (s.trk.nextId + 1) % 4096 ∧ t.trk.entryDist = 0 ∧
      t.trk.used = s.trk.used + 1

/-- R28, R29, R30, R32: a debounced rising with the coil table full or fewer than two records free is rejected with an edge of
STRIP_LOST and admits nothing; a falling in REJECTED or EMPTY bears nothing; one in ADMITTED bears the coil's TAIL, which joins
span 0 with the next id, and the entry is EMPTY. The trip controller is told after the tracking unit has done its part (log 10,
the model's choice). With no timer running the command changes nothing (log 3, the model's choice). -/
def Obligations.StripFallsOrIsRejected : Prop :=
  ∀ s : State, s.pins.reset = false →
    (s.trk.stripTimer = none → exec .stripPresentDebounceExpiry s = .next s) ∧
    (s.trk.stripTimer ≠ none → s.pins.strip = s.trk.strip →
      exec .stripPresentDebounceExpiry s = .next { s with trk := { s.trk with stripTimer := none } }) ∧
    (s.trk.stripTimer ≠ none → s.pins.strip = true → s.trk.strip = false → s.trk.entry = .empty →
      (4 ≤ s.sched.coils.length ∨ 63 ≤ s.trk.used) →
      exec .stripPresentDebounceExpiry s = .next (tripStrip true (edge .stripLost
        { s with trk := { s.trk with strip := true, stripTimer := none, entry := .rejected } }))) ∧
    (s.trk.stripTimer ≠ none → s.pins.strip = false → s.trk.strip = true → s.trk.entry ≠ .admitted →
      exec .stripPresentDebounceExpiry s = .next (tripStrip false
        { s with trk := { s.trk with strip := false, stripTimer := none, entry := .empty } })) ∧
    (∀ c, s.trk.stripTimer ≠ none → s.pins.strip = false → s.trk.strip = true → s.trk.entry = .admitted →
      s.sched.coils.getLast? = some c →
      let born := birth .tail { s with trk := { s.trk with strip := false, stripTimer := none } }
      let t := tripStrip false { born with trk := { born.trk with entry := .empty } }
      exec .stripPresentDebounceExpiry s = .next t ∧ ∃ q,
        t.trk.strip = false ∧ t.trk.entry = .empty ∧ t.trk.poolFull = false ∧
        (t.trk.queues.get .entry).getLast? = some q ∧ q.dist = (s.trk.spanLen.get .entry : Int) ∧
        q.seg.id = s.trk.nextId ∧ q.seg.kind = .tail ∧ q.seg.coil = c.number ∧
        t.trk.underEntry = some s.trk.nextId ∧ t.trk.nextId = (s.trk.nextId + 1) % 4096 ∧
        (∃ d, t.sched.coils.getLast? = some d ∧ d.tail.get .entry = true ∧ d.segCount = c.segCount) ∧
        t.trk.used = s.trk.used + 1)

/-- R23, R25, R30, R31: travel in span 0 while a coil enters grows the entry distance; at SEG_LEN a BODY is born when more than
4 records are free, and otherwise the birth is withheld, and the first withheld birth edges POOL_FULL. In EMPTY and REJECTED
nothing changes. A birth of each kind closes the HEAD or BODY under point 0, clears the accumulator, and puts a new record with
the next id at the back of span 0, under point 0, with the whole span to go and the entry distance 0; a HEAD or BODY raises the
newest coil's segment count, a HEAD or TAIL marks its progress, a BODY or TAIL ends POOL_FULL's condition, and a HEAD is
announced to the schedule store. -/
def Obligations.BodyBirthsNeedFreeRecords : Prop :=
  (∀ (d : Nat) (s : State),
    let dist := min 65535 (s.trk.entryDist + d)
    let grown : State := { s with trk := { s.trk with entryDist := dist } }
    (s.trk.entry ≠ .admitted → entryLength d s = s) ∧
    (s.trk.entry = .admitted →
      (dist < s.trk.segLen → entryLength d s = grown) ∧
      (s.trk.segLen ≤ dist → 4 < s.trk.free → entryLength d s = birth .body grown) ∧
      (s.trk.segLen ≤ dist → s.trk.free ≤ 4 → s.trk.poolFull = true → entryLength d s = grown) ∧
      (s.trk.segLen ≤ dist → s.trk.free ≤ 4 → s.trk.poolFull = false →
        entryLength d s = edge .poolFull { s with trk := { s.trk with entryDist := dist, poolFull := true } }))) ∧
  (∀ (kind : Kind) (c : Coil) (s : State), s.sched.coils.getLast? = some c →
    let cleared : Tracking := { s.trk with acc := s.trk.acc.set .entry { sum := 0, count := 0 } }
    let closed : Tracking := match s.trk.segUnder .entry with
      | some g =>
        if g.kind = .tail then cleared
        else (s.trk.closeAcc .entry).mapSeg g.id fun r => { r with entryLen := some s.trk.entryDist }
      | none => cleared
    let new : Seg :=
      { id := s.trk.nextId, kind := kind, coil := c.number, coilKey := c.key, entryLen := none, dev := .fill none,
        offGauge := false, lockonAt := .fill false }
    let counted (e : Coil) : Coil :=
      if e.key = c.key then (match kind with
        | .head => { e with segCount := min 65535 (e.segCount + 1), head := e.head.set .entry true }
        | .body => { e with segCount := min 65535 (e.segCount + 1) }
        | .tail => { e with tail := e.tail.set .entry true })
      else e
    let born : State := { s with
      trk := { closed with
        nextId := (s.trk.nextId + 1) % 4096
        queues := closed.queues.set .entry
          (closed.queues.get .entry ++ [{ seg := new, dist := (s.trk.spanLen.get .entry : Int) }])
        underEntry := some s.trk.nextId
        entryDist := 0
        poolFull := if kind = .head then s.trk.poolFull else false }
      sched := { s.sched with coils := s.sched.coils.map counted } }
    closed = closeAtEntry s.trk ∧ birth kind s = if kind = .head then setupsAtBirth c.key born else born)

/-- R42 to R45: a bite IN ends a running head watch; with the watch IDLE it passes at a stand with a coil, forces the oldest
HEAD of the span before to arrive, behind the records ahead of it, when that HEAD is within HEAD_WINDOW, and otherwise edges
STRIP_LOST. A bite OUT ends the tail watch, and at a stand with a coil it does the same for the coil's TAIL and TAIL_WINDOW. A
watch that runs out becomes IDLE and edges STRIP_LOST; with the watch IDLE the command changes nothing (log 3, the model's
choice). -/
def Obligations.BitesAndWatchesFindStrip : Prop :=
  ∀ (k : Stand) (s : State),
    let idle : State := { s with trk := { s.trk with tailWatch := s.trk.tailWatch.set k none } }
    (s.trk.headWatch.get k ≠ none →
      biteInAt k s = { s with trk := { s.trk with headWatch := s.trk.headWatch.set k none } }) ∧
    (s.trk.headWatch.get k = none → s.coilAt (.stand k) ≠ none → biteInAt k s = s) ∧
    (s.trk.headWatch.get k = none → s.coilAt (.stand k) = none →
      (∀ ahead q behind, s.trk.queues.get k.spanBefore = ahead ++ q :: behind →
        (∀ a ∈ ahead, a.seg.kind ≠ .head) → q.seg.kind = .head →
        (q.dist ≤ (s.trk.headWindow : Int) → biteInAt k s = forceArrivals k.spanBefore (ahead.length + 1) s) ∧
        ((s.trk.headWindow : Int) < q.dist → biteInAt k s = edge .stripLost s)) ∧
      ((∀ q ∈ s.trk.queues.get k.spanBefore, q.seg.kind ≠ .head) → biteInAt k s = edge .stripLost s)) ∧
    ((s.coilAt (.stand k) = none → biteOutAt k s = idle) ∧
      (∀ c, s.coilAt (.stand k) = some c →
        (∀ ahead q behind, s.trk.queues.get k.spanBefore = ahead ++ q :: behind →
          (∀ a ∈ ahead, ¬(a.seg.kind = .tail ∧ a.seg.coilKey = c.key)) → q.seg.kind = .tail → q.seg.coilKey = c.key →
          (q.dist ≤ (s.trk.tailWindow : Int) → biteOutAt k s = forceArrivals k.spanBefore (ahead.length + 1) idle) ∧
          ((s.trk.tailWindow : Int) < q.dist → biteOutAt k s = edge .stripLost idle)) ∧
        ((∀ q ∈ s.trk.queues.get k.spanBefore, ¬(q.seg.kind = .tail ∧ q.seg.coilKey = c.key)) →
          biteOutAt k s = edge .stripLost idle))) ∧
    (s.pins.reset = false →
      (s.trk.headWatch.get k = none → exec (.headWatchExpiry k) s = .next s) ∧
      (s.trk.headWatch.get k ≠ none → exec (.headWatchExpiry k) s =
        .next (edge .stripLost { s with trk := { s.trk with headWatch := s.trk.headWatch.set k none } })) ∧
      (s.trk.tailWatch.get k = none → exec (.tailWatchExpiry k) s = .next s) ∧
      (s.trk.tailWatch.get k ≠ none → exec (.tailWatchExpiry k) s =
        .next (edge .stripLost { s with trk := { s.trk with tailWatch := s.trk.tailWatch.set k none } })))

/-- R36, R37, R62: an arrival at the exit gauge completes the record under point 7, if there is one: its d_7 is closed, it is reported,
counted if OFF_GAUGE, and freed. A HEAD or BODY becomes the record under point 7. A TAIL is freed; its coil's COIL_END is reported with its
counts and the coil leaves the table. Then the monitor is offered the completed record, and the trip controller told of what is under
point 7. -/
def Obligations.ExitArrivalsCompleteRecords : Prop :=
  ∀ (s : State) (g : Seg),
    let a := s.trk.acc.exit
    let dropped (id : Nat) (t : Tracking) : Tracking :=
      let keep (r : Option Nat) : Option Nat := if r = some id then none else r
      { t with underEntry := keep t.underEntry, underStand := .ofFn fun k => keep (t.underStand.get k) }
    let closed : Tracking := { s.trk.closeAcc .exit with underExit := none }
    let headed (c : Coil) : Coil :=
      if c.key = g.coilKey ∧ g.kind = .head then { c with head := c.head.set .exit true } else c
    let completed (last : Seg) : Seg :=
      if a.count = 0 then last
      else { last with dev := last.dev.set .exit (some (clamp (-5000) 5000 (a.sum.tdiv a.count))) }
    let counted (last : Seg) (c : Coil) : Coil :=
      if c.key = last.coilKey ∧ last.offGauge = true then { c with offCount := min 65535 (c.offCount + 1) } else c
    let coils (f : Coil → Coil) (u : State) : State := { u with sched := { u.sched with coils := u.sched.coils.map f } }
    let gone (u : State) : State :=
      { u with sched := { u.sched with coils := u.sched.coils.filter fun c => c.key != g.coilKey } }
    (g.kind ≠ .tail → s.trk.underExit = none →
      arriveAtExit g s = tripExitKind (some g.kind) (coils headed { s with trk := { closed with underExit := some g } })) ∧
    (∀ last, g.kind ≠ .tail → s.trk.underExit = some last →
      arriveAtExit g s = tripExitKind (some g.kind) (monitor (completed last)
        (coils (headed ∘ counted last) (report (.segment (completed last))
          { s with trk := { dropped last.id closed with underExit := some g } })))) ∧
    (∀ c, g.kind = .tail → s.trk.underExit = none → s.coilOf g.coilKey = some c →
      arriveAtExit g s = tripExitKind none (gone
        (report (.coilEnd c.number c.schedule.isSome c.segCount c.offCount) { s with trk := dropped g.id closed }))) ∧
    (∀ last c, g.kind = .tail → s.trk.underExit = some last → s.coilOf g.coilKey = some c → last.coilKey = g.coilKey →
      let off := if last.offGauge then min 65535 (c.offCount + 1) else c.offCount
      arriveAtExit g s = tripExitKind none (monitor (completed last) (gone
        (report (.coilEnd c.number c.schedule.isSome c.segCount off) (report (.segment (completed last))
          { s with trk := dropped g.id (dropped last.id closed) }))))) ∧
    (∀ last c, g.kind = .tail → s.trk.underExit = some last → s.coilOf g.coilKey = some c → last.coilKey = g.coilKey →
      s.link.sending.isSome = true → s.link.reports.length ≤ 30 →
      let off := if last.offGauge then min 65535 (c.offCount + 1) else c.offCount
      ∃ t, arriveAtExit g s = tripExitKind none (monitor (completed last) t) ∧
        t.link.reports =
          s.link.reports ++ [.segment (completed last), .coilEnd c.number c.schedule.isSome c.segCount off] ∧
        t.trk.underExit = none ∧ t.trk.acc.exit = { sum := 0, count := 0 } ∧
        (∀ p, t.trk.under p ≠ some g.id ∧ t.trk.under p ≠ some last.id) ∧
        t.sched.coils.map Coil.key = (s.sched.coils.map Coil.key).filter (· ≠ g.coilKey))

/-- R47: SET_TRACKING: a span above 6 is refused with RANGE and tracked strip with BUSY; otherwise the span's and the common
values are stored as adjusted, the prescaler as the largest power of two up to 128 not above the value sent and 0 as 1, and the
span's counter cleared. The reply's layout is log 12's (the model's choice). -/
def Obligations.SetTrackingNeedsEmptyPool : Prop :=
  ∀ (tag : Byte) (f : TrackingFields) (s : State), MayAnswer tag s →
    (6 < f.span.toNat → exec (.setTracking tag f) s = replied 0x08 tag .range [] (heard s)) ∧
    (∀ k, Span.ofNat? f.span.toNat = some k →
      (s.trk.used ≠ 0 → exec (.setTracking tag f) s = replied 0x08 tag .busy [] (heard s)) ∧
      (s.trk.used = 0 →
        ∃ p : Nat, p ∈ [1, 2, 4, 8, 16, 32, 64, 128] ∧ p ≤ max 1 f.prescaler.toNat ∧
          (∀ m ∈ [1, 2, 4, 8, 16, 32, 64, 128], m ≤ f.prescaler.toNat → m ≤ p) ∧
        let l := clampNat 1000 12000 f.length.toNat
        let u := max 1 f.perCount.toNat
        let g := clampNat 500 20000 f.segLen.toNat
        let hw := clampNat 50 5000 f.headWindow.toNat
        let tw := clampNat 50 5000 f.tailWindow.toNat
        let d := clampNat 1 50 f.debounce.toNat
        let same : Bool := l = f.length.toNat ∧ p = f.prescaler.toNat ∧ u = f.perCount.toNat ∧ g = f.segLen.toNat ∧
          hw = f.headWindow.toNat ∧ tw = f.tailWindow.toNat ∧ d = f.debounce.toNat
        exec (.setTracking tag f) s =
          replied 0x08 tag (if same then .ok else .adjusted)
            (be2 l ++ be1 p ++ be2 u ++ be2 g ++ be2 hw ++ be2 tw ++ be1 d)
            { heard s with
              trk := { s.trk with
                spanLen := s.trk.spanLen.set k l, segLen := g, headWindow := hw, tailWindow := tw, debounce := d }
              counters := s.counters.set k { prescaler := p, perCount := u, tally := 0, rest := 0 } }))

/-! ### Coils and schedules -/

/-- R50, R51, R52: LOAD_SCHEDULE is refused with QUEUE_FULL and the count when 4 wait, and otherwise adds the schedule with every item
clamped, its reply carrying them in R50's order; FLUSH_SCHEDULES empties the queue and says how many it held. Nothing else changes. -/
def Obligations.SchedulesAreQueuedAndFlushed : Prop :=
  ∀ (tag : Byte) (f : ScheduleFields) (s : State), MayAnswer tag s →
    let stand (g : StandScheduleFields) : StandSchedule :=
      { gap := min g.gap.toNat 30000, h := min g.h.toNat 30000, q := min g.q.toNat 20000, gFb := min g.gFb.toNat 256,
        gFf := min g.gFf.toNat 256 }
    let d : Schedule :=
      { coil := f.coil.toNat, hNom := min f.hNom.toNat 30000, stands := .ofFn fun k => stand (f.stands.get k) }
    let n := s.sched.queue.length
    (n = 4 → exec (.loadSchedule tag f) s = replied 0x0B tag .queueFull [4] (heard s)) ∧
    (n < 4 → ∃ status content, exec (.loadSchedule tag f) s =
      replied 0x0B tag status (content ++ be1 (n + 1 : Nat))
        { heard s with sched := { s.sched with queue := s.sched.queue ++ [d] } } ∧
      content = be2 d.coil ++ be2 d.hNom ++ (Stand.all.flatMap fun k => be2 (d.stands.get k).gap) ++
        (Stand.all.flatMap fun k => be2 (d.stands.get k).h) ++ (Stand.all.flatMap fun k => be2 (d.stands.get k).q) ++
        (Stand.all.flatMap fun k => be2 (d.stands.get k).gFb) ++ (Stand.all.flatMap fun k => be2 (d.stands.get k).gFf) ∧
      (status = .ok ∨ status = .adjusted) ∧
      (status = .ok ↔ f.hNom.toNat ≤ 30000 ∧ ∀ k, (f.stands.get k).gap.toNat ≤ 30000 ∧
        (f.stands.get k).h.toNat ≤ 30000 ∧ (f.stands.get k).q.toNat ≤ 20000 ∧ (f.stands.get k).gFb.toNat ≤ 256 ∧
        (f.stands.get k).gFf.toNat ≤ 256)) ∧
    exec (.flushSchedules tag) s =
      replied 0x0C tag .ok (be1 n) { heard s with sched := { s.sched with queue := [] } }

/-- R60, R61, R95: a setup move's target is the set gap clamped into the window; a stand with RETRACT or STOP refuses it with
REFUSED_TRIP and a full pending queue with QUEUE_FULL, each with a MOVE_DONE and no other change; otherwise it is taken. -/
def Obligations.SetupMovesAreTakenOrRefused : Prop :=
  ∀ (k : Stand) (gap : Int) (s : State),
    let e := s.eng.get k
    let target := clamp e.cfg.gapMin e.cfg.gapMax gap
    let m : Move :=
      { origin := .setup, target := target, step := e.cfg.setRate, tag := none, clamped := decide (target ≠ gap) }
    let refused (status : MoveStatus) : State :=
      report (.moveDone k none .setup status m.clamped e.ref (s.measured (.position k))) s
    (s.retracting k = true → issueSetup k gap s = refused .refusedTrip) ∧
    (s.retracting k = false → 4 ≤ e.pending.length → issueSetup k gap s = refused .queueFull) ∧
    (s.retracting k = false → e.pending.length < 4 → issueSetup k gap s = takeMove k m s)

/-- R58, R59: a scheduled coil's setups are issued at its birth at exactly the stands every earlier coil's TAIL has reached, in stand order, each
with the schedule's set gap there and its setup done mark; a TAIL's arrival issues one for the coil admitted next, and only if it
is scheduled. -/
def Obligations.SetupsWaitForEarlierTails : Prop :=
  ∀ s : State,
    (∀ (earlier : List Coil) (c : Coil), s.sched.coils = earlier ++ [c] → (∀ d ∈ earlier, d.key ≠ c.key) →
      let free (k : Stand) : Bool := earlier.all fun d => d.tail.get (.stand k)
      let marked (k : Stand) (t : State) : State := { t with sched := { t.sched with
        coils := t.sched.coils.map fun d => if d.key = c.key then { d with setup := d.setup.set k true } else d } }
      let t := setupsAtBirth c.key s
      (c.schedule = none → t = s) ∧
      (∀ sch, c.schedule = some sch →
        t = (Stand.all.filter free).foldl (fun u k => issueSetup k (sch.stands.get k).gap (marked k u)) s ∧
        t.sched.coils = earlier ++ [{ c with setup := .ofFn fun k => c.setup.get k || free k }] ∧
        (∀ k, t.eng.get k = if free k then (issueSetup k (sch.stands.get k).gap s).eng.get k else s.eng.get k))) ∧
    (∀ (k : Stand) (ahead behind : List Coil) (gone next : Coil), s.sched.coils = ahead ++ gone :: next :: behind →
      (s.sched.coils.map Coil.key).Nodup →
      (next.schedule = none → setupAtTail k gone.key s = s) ∧
      (∀ sch, next.schedule = some sch →
        setupAtTail k gone.key s = issueSetup k (sch.stands.get k).gap { s with sched := { s.sched with
          coils := ahead ++ gone :: { next with setup := next.setup.set k true } :: behind } })) ∧
    (∀ (k : Stand) (ahead : List Coil) (gone : Coil), s.sched.coils = ahead ++ [gone] →
      (s.sched.coils.map Coil.key).Nodup → setupAtTail k gone.key s = s)

/-! ### Gauge control -/

/-- R39, R73, R74: the gauge error is h_gm, the position plus the stretch rounded to nearest with halves away from zero, less the aim, and
each is clamped to 0..30,000. On a force value it is formed while h_ref is present and the position channel VALID, taken by the stand's
accumulator while a coil is at the stand, and corrected on while the stand is ACTIVE. -/
def Obligations.GaugeErrorOnForceValue : Prop :=
  ∀ (k : Stand) (force position href : Int) (s : State),
    let c := (s.eng.get k).cfg
    let x := (force - c.f0) * 1000
    let e := gaugeError s k href force position
    (0 < c.m → ∃ stretch : Int,
      (2 * (x - stretch * c.m).natAbs : Int) ≤ c.m ∧
      ((2 * (x - stretch * c.m).natAbs : Int) = c.m → x.natAbs < (stretch * c.m).natAbs) ∧
      e = clamp 0 30000 (position + stretch) - clamp 0 30000 (if k = .s6 then href - s.gauge.m else href)) ∧
    ((s.gauge.stands.get k).href = none ∨ s.measured (.position k) = none → forceValue k force s = s) ∧
    ((s.gauge.stands.get k).href = some href → s.measured (.position k) = some position →
      let noted := if (s.coilAt (.stand k)).isSome then accumulate (.stand k) e s else s
      ((s.gauge.stands.get k).st ≠ .active → forceValue k force s = noted) ∧
      ((s.gauge.stands.get k).st = .active → forceValue k force s = correct k e position noted))

/-- R75 to R79: the correction of an error: the error outside the deadband and the carried deviation, scaled by the coil's gains and
truncated, are taken from the position; the result is held within STEP_MAX of the reference and then inside the window, with the two
flags saying which limit bound, and handed to the engine. -/
def Obligations.CorrectionFollowsSteps : Prop :=
  ∀ (k : Stand) (e position : Int) (s : State),
    let c := (s.eng.get k).cfg
    let ref := (s.eng.get k).ref
    let sch := ((s.coilAt (.stand k)).bind Coil.schedule).map fun d => d.stands.get k
    let q : Int := (sch.map StandSchedule.q).getD 0
    let gFb : Int := (sch.map StandSchedule.gFb).getD 192
    let gFf : Int := (sch.map StandSchedule.gFf).getD 0
    let dH : Int := ((s.trk.segUnder (.stand k)).bind fun g => g.dev.get k.pointBefore).getD 0
    let eEff : Int :=
      if (e.natAbs : Int) ≤ s.gauge.db then 0 else if s.gauge.db < e then e - s.gauge.db else e + s.gauge.db
    let raw := position - (eEff * (c.m + q) * gFb).tdiv (c.m * 256) - (dH * q * gFf).tdiv (c.m * 256)
    let near := clamp (ref - c.stepMax) (ref + c.stepMax) raw
    let r := correction s k e position
    correct k e position s =
      takeFeedback k r.target
        (setAgc k { s.gauge.stands.get k with stepLimited := r.stepLimited, atLimit := r.atLimit } s) ∧
    (0 ≤ c.stepMax →
      r.target = clamp c.gapMin c.gapMax near ∧
      r.stepLimited = decide (c.stepMax < raw - ref ∨ c.stepMax < ref - raw) ∧
      r.atLimit = decide (r.target ≠ near) ∧
      (inWindow c ref → inWindow c r.target ∧ r.target - ref ≤ c.stepMax ∧ ref - r.target ≤ c.stepMax))

/-- R96: a FEEDBACK correction starts a move at an idle, free engine, combines with a FEEDBACK move that ramps or settles, and is discarded
in every other case. A start counts the updates afresh from the present reference. -/
def Obligations.FeedbackStartsCombinesOrIsDiscarded : Prop :=
  ∀ (k : Stand) (x : Int) (s : State),
    let e := s.eng.get k
    let fresh : Move := { origin := .feedback, target := x, step := e.cfg.agcRate, tag := none, clamped := false }
    let starts (m : Move) : Prop := ∃ e', Started e m e' ∧ takeFeedback k x s = setEngine k e' s
    (e.retracted = true → takeFeedback k x s = s) ∧
    (e.retracted = false → e.act = .idle →
      (0 < e.cfg.agcRate → e.pending = [] → s.blocked k = false → starts fresh) ∧
      (e.pending ≠ [] ∨ s.blocked k = true → takeFeedback k x s = s)) ∧
    (∀ a, e.retracted = false → (e.act = .ramping a ∨ e.act = .settling a) →
      (0 < a.move.step → a.move.origin = .feedback → starts { a.move with target := x }) ∧
      (a.move.origin ≠ .feedback → takeFeedback k x s = s)) ∧
    (∀ a p, e.act = .held a p → takeFeedback k x s = s)

/-- R68, R69, R70: what an arrival does to a stand's reference: a HEAD clears the lock-on count and in ABSOLUTE mode takes the schedule's
target; a BODY raises the count and may lock on; a TAIL clears the reference, the count and the flags, and at stand 6 the trim. -/
def Obligations.ReferenceFollowsCoil : Prop :=
  ∀ (k : Stand) (g : Seg) (s : State),
    let a := s.gauge.stands.get k
    let t := arrivalAtGauge k g s
    let target := ((s.coilOf g.coilKey).bind Coil.schedule).map fun d => (d.stands.get k).h
    let count := min 65535 (a.lockonCount + 1)
    (g.kind = .head →
      t = setAgc k
        { a with
          lockonCount := 0
          href := if a.mode = .absolute ∧ target.isSome then target else a.href
          st := agcStateOf t k } s) ∧
    (g.kind = .tail →
      t = setAgc k
        { a with lockonCount := 0, href := none, stepLimited := false, atLimit := false, st := agcStateOf t k }
        { s with gauge := { s.gauge with m := if k = .s6 then 0 else s.gauge.m } }) ∧
    (g.kind = .body →
      (∀ force position, a.mode = .lockon → a.href = none → s.gauge.lockonSeg ≤ count → s.chan.biteIn.get k = true →
        g.offGauge = false → s.measured (.force k) = some force → s.measured (.position k) = some position →
        t = setAgc k
          { a with
            lockonCount := count
            href := some (hGm (s.eng.get k).cfg force position)
            st := agcStateOf t k }
          { s with trk := s.trk.mapSeg g.id fun r => { r with lockonAt := r.lockonAt.set k true } }) ∧
      (a.mode ≠ .lockon ∨ a.href ≠ none ∨ count < s.gauge.lockonSeg ∨ s.chan.biteIn.get k = false ∨ g.offGauge = true ∨
        s.measured (.force k) = none ∨ s.measured (.position k) = none →
        t = setAgc k { a with lockonCount := count } s))

/-- R80, R81: a completed record trims stand 6's aim by d_7 times G_mon over 256, truncated, when it is not OFF_GAUGE, stand 6 is ACTIVE
and the coil at point 7 is the coil at stand 6; a trim beyond 2,000 either way is clamped there and edges MONITOR_LIMIT. -/
def Obligations.MonitorTrimsWithinLimits : Prop :=
  ∀ (done : Seg) (s : State),
    (done.dev.exit = none ∨ done.offGauge = true ∨ (s.gauge.stands.get .s6).st ≠ .active ∨
      (∀ a b, s.coilAt .exit = some a → s.coilAt (.stand .s6) = some b → a.key ≠ b.key) → monitor done s = s) ∧
    (∀ d a b, done.dev.exit = some d → done.offGauge = false → (s.gauge.stands.get .s6).st = .active →
      s.coilAt .exit = some a → s.coilAt (.stand .s6) = some b → a.key = b.key →
      let m := s.gauge.m + (d * s.gauge.gMon).tdiv 256
      let trimmed (v : Int) : State := { s with gauge := { s.gauge with m := v } }
      (-2000 ≤ m → m ≤ 2000 → monitor done s = trimmed m) ∧
      (2000 < m → monitor done s = edge .monitorLimit (trimmed 2000)) ∧
      (m < -2000 → monitor done s = edge .monitorLimit (trimmed (-2000))))

/-- R66, R67: SET_AGC: RANGE for a stand or mode that is none, LOCKED for ABSOLUTE or LOCKON under the lock; otherwise the common settings are
stored as clamped, and a change of mode clears the reference and flags, and stand 6's trim, and keeps the lock-on count. -/
def Obligations.SetAgcChangesMode : Prop :=
  ∀ (tag : Byte) (f : AgcFields) (s : State), MayAnswer tag s →
    let h := heard s
    (Stand.ofNat? f.stand.toNat = none ∨ 2 < f.mode.toNat →
      exec (.setAgc tag f) s = replied 0x07 tag .range [] h) ∧
    (∀ k mode, Stand.ofNat? f.stand.toNat = some k → agcMode? f.mode = some mode →
      (s.ilk.lockOpen = false → mode ≠ .off → exec (.setAgc tag f) s = replied 0x07 tag .locked [] h) ∧
      (s.ilk.lockOpen = true ∨ mode = .off →
        let db : Nat := min f.db.toNat 100
        let gMon : Nat := min f.gMon.toNat 256
        let seg := clampNat 1 8 f.lockonSeg.toNat
        let same : Bool := db = f.db.toNat ∧ gMon = f.gMon.toNat ∧ seg = f.lockonSeg.toNat
        let stored : State := { h with gauge := { h.gauge with db := db, gMon := gMon, lockonSeg := seg } }
        ∃ t, exec (.setAgc tag f) s = replied 0x07 tag (if same then .ok else .adjusted)
            ([f.stand, mode.code, (t.gauge.stands.get k).st.code] ++ be1 db ++ be2 gMon ++ be1 seg) t ∧
          ((s.gauge.stands.get k).mode = mode → t = stored) ∧
          ((s.gauge.stands.get k).mode ≠ mode →
            t = setAgc k
              { s.gauge.stands.get k with
                mode := mode, href := none, stepLimited := false, atLimit := false, st := agcStateOf t k }
              { stored with gauge := { stored.gauge with m := if k = .s6 then 0 else s.gauge.m } })))

/-! ### Move engines -/

/-- R85, R89: an update of a ramping move lowers its count and steps ref toward the target, or, as the count reaches 0, sets ref to the
target and starts the settle timer; RAMP_DONE is that last update, taken when one is left. A changed ref is sent. An update in another
state changes nothing, and nor does RAMP_DONE there or with more updates left (log 3, the model's choice). -/
def Obligations.UpdatesStepTowardTarget : Prop :=
  ∀ (k : Stand) (s : State), s.pins.reset = false →
    let e := s.eng.get k
    let becomes (e' : Engine) : State :=
      { s with
        eng := s.eng.set k e'
        port := if e'.ref = e.ref then s.port
          else s.port.set k { last := some e'.ref, sends := (s.port.get k).sends + 1 } }
    (∀ a, e.act = .ramping a →
      let v := if e.ref < a.move.target then e.ref + a.move.step else e.ref - a.move.step
      let landed : State := becomes
        { e with ref := a.move.target, act := .settling { a with remaining := 0 }, settleLeft := some e.cfg.settleTime }
      (1 < a.remaining → exec (.updateExpiry k) s =
        .next (becomes { e with ref := v, act := .ramping { a with remaining := a.remaining - 1 } })) ∧
      (1 < a.remaining → exec (.rampDone k) s = .next s) ∧
      (a.remaining ≤ 1 → exec (.updateExpiry k) s = .next landed ∧ exec (.rampDone k) s = .next landed)) ∧
    ((∀ a, e.act ≠ .ramping a) → exec (.updateExpiry k) s = .next s ∧ exec (.rampDone k) s = .next s)

/-- R87, R89, R92, R93: a SETUP or LINK move that is taken clears RETRACTED and drops a FEEDBACK move; it starts at an idle, free engine with
an empty queue, and otherwise joins the queue's back. Only the stand's engine, its AGC state and its POSITION condition change. -/
def Obligations.TakenMovesStartOrWait : Prop :=
  ∀ (k : Stand) (m : Move) (s : State), 0 < m.step →
    let e := s.eng.get k
    let dropped := e.act.isOf .feedback
    let e1 : Engine :=
      if dropped then { e with retracted := false, act := .idle, settleLeft := none, posErr := 0 }
      else { e with retracted := false }
    let t := takeMove k m s
    (e1.act = .idle → e.pending = [] → s.blocked k = false → Started e1 m (t.eng.get k)) ∧
    (e1.act ≠ .idle ∨ s.blocked k = true → t.eng.get k = { e1 with pending := e.pending ++ [m] }) ∧
    (∀ j, j ≠ k → t.eng.get j = s.eng.get j) ∧
    t = { s with
      eng := t.eng
      gauge := { s.gauge with
        stands := s.gauge.stands.set k { s.gauge.stands.get k with st := agcStateOf t k } }
      trips := if dropped then (setLive (.position k) false s).trips else s.trips }

/-- R87, R90, R91, R103: the settle timer's running out finishes a settling move with SETTLE_TIMEOUT, and a position value
within IN_POS of its target with REACHED. A finished move leaves the engine, frees its tag's slot, is reported if it is SETUP or
LINK, sets RETRACTED if it is RETRACT, clears the position-error count, and lets the oldest pending move start where nothing
blocks the stand. With no settling move or timer SETTLE_TIMER_EXPIRY changes nothing (log 3, the model's choice). A position
value raises or clears the count while the engine is not IDLE, and the POSITION condition is handed on with the count, before the
settle test of the same value: R103 orders the count and the test alone, and that place of the condition is the model's choice
(log 10). -/
def Obligations.FinishedMovesGiveWay : Prop :=
  ∀ (k : Stand) (s : State),
    let e := s.eng.get k
    (s.pins.reset = false →
      (∀ a, e.act = .settling a → e.settleLeft ≠ none →
        exec (.settleTimerExpiry k) s = .next (deriveAgc k (finishMove k a.move .settleTimeout s))) ∧
      ((∀ a, e.act ≠ .settling a) ∨ e.settleLeft = none → exec (.settleTimerExpiry k) s = .next s)) ∧
    (∀ (m : Move) (status : MoveStatus),
      let idle : Engine :=
        { e with act := .idle, settleLeft := none, posErr := 0, retracted := e.retracted || m.origin == .retract }
      let t := finishMove k m status s
      (e.pending = [] ∨ s.blocked k = true → t.eng.get k = idle) ∧
      (∀ p rest, e.pending = p :: rest → s.blocked k = false → 0 < p.step →
        Started { idle with pending := rest, retracted := false } p (t.eng.get k)) ∧
      (∀ j, j ≠ k → t.eng.get j = s.eng.get j) ∧
      t = { s with
        eng := t.eng
        slots := (match m.tag with
          | some x => s.slots.set x none
          | none => s.slots)
        trips := (setLive (.position k) false s).trips
        link := if m.origin = .setup ∨ m.origin = .link then
            (s.link.offer (.moveDone k m.tag m.origin status m.clamped e.ref (s.measured (.position k)))).pump
          else s.link }) ∧
    (∀ v : Int,
      let far := e.cfg.posErrLimit < (v - e.ref).natAbs
      let n := if far then (if e.posErr = e.cfg.posErrCount then e.posErr else e.posErr + 1) else 0
      (e.act = .idle → countPosErr k v s = s) ∧
      (e.act ≠ .idle →
        countPosErr k v s = condition (.position k) (n == e.cfg.posErrCount) (setEngine k { e with posErr := n } s)) ∧
      positionValue k v s = settleTest k v (countPosErr k v s) ∧
      (∀ a, e.act = .settling a → ((v - a.move.target).natAbs : Int) ≤ e.cfg.inPos →
        settleTest k v s = deriveAgc k (finishMove k a.move .reached s)) ∧
      (∀ a, e.act = .settling a → e.cfg.inPos < ((v - a.move.target).natAbs : Int) → settleTest k v s = s) ∧
      ((∀ a, e.act ≠ .settling a) → settleTest k v s = s))

/-- R94: MOVE's checks in their order, each refusal changing nothing; a request that passes holds the tag's slot and its move is taken. -/
def Obligations.MoveIsCheckedThenTaken : Prop :=
  ∀ (tag stand : Byte) (target rate : Word) (s : State), MayAnswer tag s →
    let h := heard s
    (Stand.ofNat? stand.toNat = none → exec (.move tag stand target rate) s = replied 0x0D tag .range [] h) ∧
    (∀ k x, Stand.ofNat? stand.toNat = some k → Tag.ofNat? tag.toNat = some x →
      let e := s.eng.get k
      let refused (status : Status) : Prop := exec (.move tag stand target rate) s = replied 0x0D tag status [] h
      (¬inWindow e.cfg target.toNat → refused .range) ∧
      (inWindow e.cfg target.toNat →
        (s.ilk.lockOpen = false → refused .locked) ∧
        (s.ilk.lockOpen = true → s.retracting k = true → refused .tripped) ∧
        (s.ilk.lockOpen = true → s.retracting k = false → s.slots.get x ≠ none → refused .tagBusy) ∧
        (s.ilk.lockOpen = true → s.retracting k = false → s.slots.get x = none → 4 ≤ e.pending.length →
          refused .queueFull) ∧
        (s.ilk.lockOpen = true → s.retracting k = false → s.slots.get x = none → e.pending.length < 4 →
          let step := clampNat 1 500 rate.toNat
          let m : Move := { origin := .link, target := target.toNat, step := step, tag := some x, clamped := false }
          let starts := (e.act.isIdle || e.act.isOf .feedback) && e.pending.isEmpty && !s.blocked k
          exec (.move tag stand target rate) s =
            replied 0x0D tag (if step = rate.toNat then .ok else .adjusted)
              ([stand] ++ be2 target.toNat ++ be2 step ++
                if starts then [0, 0, 0] else [1, 1] ++ be1 (e.pending.length + 1 : Nat))
              (takeMove k m { h with slots := h.slots.set x (some k) }))))

/-- R97, R98, R99: HOLD_MOVE, RESUME_MOVE and CANCEL_MOVE: their checks in order, and what each does to the move it finds. -/
def Obligations.HostHoldsResumesCancels : Prop :=
  ∀ (tag stand : Byte) (s : State), MayAnswer tag s →
    let h := heard s
    let holds (status : Status) : Prop := exec (.holdMove tag stand) s = replied 0x0E tag status [] h
    let resumes (status : Status) : Prop := exec (.resumeMove tag stand) s = replied 0x0F tag status [] h
    let cancels (status : Status) : Prop := exec (.cancelMove tag stand) s = replied 0x10 tag status [] h
    let named (m : Move) : List Byte := [m.origin.code] ++ (match m.tag with
      | some x => 1 :: be1 x.num
      | none => [0, 0]) ++ be2 m.target
    (Stand.ofNat? stand.toNat = none → holds .range ∧ resumes .range) ∧
    (∀ k, Stand.ofNat? stand.toNat = some k →
      let e := s.eng.get k
      (∀ a, e.act = .ramping a → a.move.origin ≠ .retract → exec (.holdMove tag stand) s =
        replied 0x0E tag .ok (named a.move)
          (setEngine k { e with act := .held a .ramping, settleLeft := none } h)) ∧
      (∀ a, e.act = .settling a → a.move.origin ≠ .retract → exec (.holdMove tag stand) s =
        replied 0x0E tag .ok (named a.move)
          (setEngine k { e with act := .held a .settling, settleLeft := none } h)) ∧
      (e.act = .idle ∨ (∃ a p, e.act = .held a p) ∨ e.act.isOf .retract = true → holds .busy) ∧
      (s.ilk.lockOpen = false → resumes .locked) ∧
      (s.ilk.lockOpen = true → s.blocked k = true → resumes .tripped) ∧
      (s.ilk.lockOpen = true → s.blocked k = false → (∀ a p, e.act ≠ .held a p) → resumes .busy) ∧
      (∀ a, s.ilk.lockOpen = true → s.blocked k = false → e.act = .held a .ramping →
        exec (.resumeMove tag stand) s =
          replied 0x0F tag .ok (named a.move) (setEngine k { e with act := .ramping a } h)) ∧
      (∀ a, s.ilk.lockOpen = true → s.blocked k = false → e.act = .held a .settling →
        exec (.resumeMove tag stand) s =
          replied 0x0F tag .ok (named a.move)
            (setEngine k { e with act := .settling a, settleLeft := some e.cfg.settleTime } h))) ∧
    (7 < stand.toNat → cancels .range) ∧
    (∀ x, Tag.ofNat? stand.toNat = some x →
      (s.slots.get x = none → cancels .notFound) ∧
      (∀ k, s.slots.get x = some k →
        let e := s.eng.get k
        (∀ a, e.act.active? = some a → a.move.tag = some x →
          exec (.cancelMove tag stand) s =
            replied 0x10 tag .ok (be1 k.num ++ [0]) (deriveAgc k (finishMove k a.move .cancelled h))) ∧
        (∀ ahead m behind, (∀ a, e.act.active? = some a → a.move.tag ≠ some x) → m.tag = some x →
          e.pending = ahead ++ m :: behind → (∀ p ∈ ahead ++ behind, p.tag ≠ some x) →
          exec (.cancelMove tag stand) s =
            replied 0x10 tag .ok (be1 k.num ++ [1])
              (deriveAgc k (report
                (.moveDone k (some x) m.origin .cancelled m.clamped e.ref (s.measured (.position k)))
                { h with slots := s.slots.set x none, eng := s.eng.set k { e with pending := ahead ++ behind } })))))

/-- R104, R105: SET_STAND: RANGE for a stand that is none, then for a window, after clamping, that leaves out the reference; BUSY while a move
is active or pending; otherwise all fifteen settings are replaced and nothing else in the engine changes. The reply's layout is log 12's
(the model's choice). -/
def Obligations.SetStandKeepsReferenceInWindow : Prop :=
  ∀ (tag : Byte) (f : StandFields) (s : State), MayAnswer tag s →
    let h := heard s
    let gapMin : Int := min f.gapMin.toNat 29000
    let biteOn : Int := clamp 100 10000 f.biteOn.toNat
    let c : StandCfg :=
      { gapMin := gapMin, gapMax := clamp (gapMin + 1000) 30000 f.gapMax.toNat, f0 := min f.f0.toNat 5000,
        m := clamp 1000 10000 f.m.toNat, fMax := clamp 1000 40000 f.fMax.toNat, biteOn := biteOn,
        biteOff := min f.biteOff.toNat (biteOn - 1), setRate := clampNat 1 500 f.setRate.toNat,
        agcRate := clampNat 1 500 f.agcRate.toNat, retractRate := clampNat 1 2000 f.retractRate.toNat,
        stepMax := clamp 1 2000 f.stepMax.toNat, settleTime := clampNat 5 500 f.settleTime.toNat,
        inPos := clamp 1 200 f.inPos.toNat, posErrLimit := clamp 10 5000 f.posErrLimit.toNat,
        posErrCount := clampNat 1 100 f.posErrCount.toNat }
    let values : List Int := [c.gapMin, c.gapMax, c.f0, c.m, c.fMax, c.biteOn, c.biteOff, c.setRate, c.agcRate,
      c.retractRate, c.stepMax, c.settleTime, c.inPos, c.posErrLimit, c.posErrCount]
    let sent : List Int := [f.gapMin, f.gapMax, f.f0, f.m, f.fMax, f.biteOn, f.biteOff, f.setRate, f.agcRate,
      f.retractRate, f.stepMax, f.settleTime, f.inPos, f.posErrLimit, f.posErrCount].map fun w => (w.toNat : Int)
    (Stand.ofNat? f.stand.toNat = none → exec (.setStand tag f) s = replied 0x05 tag .range [] h) ∧
    (∀ k, Stand.ofNat? f.stand.toNat = some k →
      let e := s.eng.get k
      (¬inWindow c e.ref → exec (.setStand tag f) s = replied 0x05 tag .range [] h) ∧
      (inWindow c e.ref → (e.act ≠ .idle ∨ e.pending ≠ []) →
        exec (.setStand tag f) s = replied 0x05 tag .busy [] h) ∧
      (inWindow c e.ref → e.act = .idle → e.pending = [] →
        exec (.setStand tag f) s =
          replied 0x05 tag (if values = sent then .ok else .adjusted) (values.flatMap be2)
            (setEngine k { e with cfg := c } h)))

/-- R101: the retract procedure, at a stand whose set holds a retract-type entry: SETUP and LINK moves, the active one first and then the
pending ones oldest first, end with ABORTED_TRIP, their slots freed; a FEEDBACK move is dropped; and a RETRACT move to GAP_MAX starts
from the engine that is left. An active move that ends clears the position-error count and condition, as does the dropped one (log 9's
inference). A RETRACT move already active goes on as it is. Of the engine no more than this changes: RETRACTED and the settings stay. -/
def Obligations.RetractSweepsEngine : Prop :=
  ∀ (k : Stand) (s : State), s.retracting k = true → 0 < (s.eng.get k).cfg.retractRate →
    s.link.sending.isSome = true → s.link.reports.length + (s.eng.get k).pending.length < 32 →
    let e := s.eng.get k
    let aborted := ((e.act.active?.map Active.move).toList.filter fun m => m.origin == .setup || m.origin == .link) ++
      e.pending
    let opening : Move :=
      { origin := .retract, target := e.cfg.gapMax, step := e.cfg.retractRate, tag := none, clamped := false }
    let t := retract k s
    t.link.reports = s.link.reports ++ aborted.map (fun m =>
      .moveDone k m.tag m.origin .abortedTrip m.clamped e.ref (s.measured (.position k))) ∧
    (t.eng.get k).pending = [] ∧ (t.eng.get k).ref = e.ref ∧
    (e.act.isOf .retract = true → t.eng.get k = { e with pending := [] }) ∧
    (e.act = .idle → Started { e with pending := [] } opening (t.eng.get k)) ∧
    (e.act ≠ .idle → e.act.isOf .retract = false →
      Started { e with act := .idle, settleLeft := none, posErr := 0, pending := [] } opening (t.eng.get k)) ∧
    (∀ x, t.slots.get x = if ∃ m ∈ aborted, m.tag = some x then none else s.slots.get x) ∧
    (∀ j, j ≠ k → t.eng.get j = s.eng.get j) ∧
    t = { s with
      eng := t.eng
      slots := t.slots
      link := { s.link with reports := t.link.reports }
      gauge := { s.gauge with
        stands := s.gauge.stands.set k { s.gauge.stands.get k with st := agcStateOf t k } }
      trips := if e.act = .idle ∨ e.act.isOf .retract = true then s.trips else (setLive (.position k) false s).trips }

/-! ### Trips -/

/-- R110 to R115, R118: an edge does nothing to a masked or PENDING source, latches a QUIET one, and sets the repeat mark of an EDGE
source in service. A latched source is acted if it is eligible, and then reported. A condition handed on is recorded, and a change to
true is an edge. The conditions of sources 13 to 15 follow the inputs kept for them. -/
def Obligations.EdgesLatchSources : Prop :=
  ∀ (x : Source) (s : State),
    let r := s.trips.src.get x
    (r.masked = true ∨ r.st = .pending → edge x s = s) ∧
    (r.masked = false → r.st = .inService →
      edge x s = if r.mode = .edge then setSource x { r with rep := true } s else s) ∧
    (r.masked = false → r.st = .quiet →
      (r.priority < s.trips.ceiling →
        edge x s = evalAttn (report (.tripRaised x r.priority r.action true true)
          (applyAction x r.action (setSource x { r with st := .pending, acted := true } s)))) ∧
      (s.trips.ceiling ≤ r.priority →
        edge x s = evalAttn (report (.tripRaised x r.priority r.action false r.acted)
          (setSource x { r with st := .pending } s)))) ∧
    evalAttn s = { s with link := { s.link with attn := (selected s).isSome } } ∧
    (∀ b, r.live = b → condition x b s = s) ∧
    (r.live = true → condition x false s = setSource x { r with live := false } s) ∧
    (r.live = false → condition x true s = edge x (setSource x { r with live := true } s)) ∧
    (let t := (derivedConditions s).trips
     let c := s.trips.inputs.chan
     t.inputs = s.trips.inputs ∧
     (t.src.exitGauge.live = true ↔
       (c.exit = .stale ∨ c.exit = .fault) ∧ ∃ kind, s.trips.inputs.exitKind = some kind ∧ kind ≠ .tail) ∧
     (t.src.entryGauge.live = true ↔ (c.entry = .stale ∨ c.entry = .fault) ∧ s.trips.inputs.strip = true) ∧
     (t.src.channelFault.live = true ↔ ∃ k, c.force.get k = .fault ∨ c.position.get k = .fault))

/-- R129, R130, R132: an applied action's entry joins the action set of every stand in the source's scope, and STOP asserts the line; a
first retract-type entry marks the record under the stand and runs the retract procedure, and a hold entry holds the active move where no
retract-type entry is. The stands are taken in order, and gauge control is told where a set becomes blocking. A released entry leaves
the sets, and a stand left without a blocking entry starts its oldest pending move. -/
def Obligations.ActionsEnterAndLeaveSets : Prop :=
  ∀ (x : Source) (a : Action) (s : State),
    let t := applyAction x a s
    let u := releaseAction x s
    (∀ k, t.ilk.sets.get k =
      if k ∈ scope x then s.ilk.sets.get k ++ [{ source := x, action := a }] else s.ilk.sets.get k) ∧
    t.ilk = { s.ilk with sets := t.ilk.sets, stop := s.ilk.stop || a == .stop } ∧
    t = (scope x).foldl (applyAt x a) { s with ilk := { s.ilk with stop := s.ilk.stop || a == .stop } } ∧
    (∀ k,
      let entered := setActions k (s.ilk.sets.get k ++ [{ source := x, action := a }]) s
      let offGauge : State := match s.trk.underStand.get k with
        | some id => { entered with trk := entered.trk.mapSeg id fun g => { g with offGauge := true } }
        | none => entered
      let blocks (u : State) : State := if s.blocked k then u else deriveAgc k u
      applyAt x a s k =
        if s.retracting k then entered
        else match a with
          | .alarm => entered
          | .hold => blocks (holdActive k entered)
          | .retract | .stop => blocks (retract k offGauge)) ∧
    (a = .alarm → t = { s with ilk := { s.ilk with sets := t.ilk.sets } }) ∧
    (∀ k, k ∉ scope x ∨ s.retracting k = true → t.eng.get k = s.eng.get k) ∧
    (∀ k, k ∈ scope x → s.retracting k = false →
      (a = .hold → t.eng.get k = (holdActive k s).eng.get k) ∧
      (a = .retract ∨ a = .stop →
        (t.eng.get k).act.isOf .retract = true ∧ (t.eng.get k).pending = [] ∧
        (∀ id g, s.trk.underStand.get k = some id → g ∈ t.trk.segs → g.id = id → g.offGauge = true))) ∧
    (∀ k, u.ilk.sets.get k =
      if k ∈ scope x then (s.ilk.sets.get k).filter (fun e => e.source ≠ x) else s.ilk.sets.get k) ∧
    u.ilk = { s.ilk with sets := u.ilk.sets } ∧
    (∀ k, k ∉ scope x ∨ u.blocked k = true ∨ (s.eng.get k).act ≠ .idle ∨ (s.eng.get k).pending = [] →
      u.eng.get k = s.eng.get k) ∧
    (∀ k m rest, k ∈ scope x → u.blocked k = false → (s.eng.get k).act = .idle → (s.eng.get k).pending = m :: rest →
      0 < m.step → Started { s.eng.get k with pending := rest, retracted := false } m (u.eng.get k))

/-- R116, R118: TAKE_TRIP selects the PENDING and eligible source with the lowest priority number, and of those the lowest source number,
if that priority is below the top of the stack's. The source taken is put on the stack in service; with none selected the reply is NONE. -/
def Obligations.TakeTripSelectsMostUrgent : Prop :=
  ∀ (tag : Byte) (x : Source) (s : State), MayAnswer tag s →
    let h := heard s
    let offered (y : Source) : Prop :=
      (s.trips.src.get y).st = .pending ∧ (s.trips.src.get y).priority < s.trips.ceiling
    let r := s.trips.src.get x
    (selected s = some x ↔ offered x ∧
      (∀ y, offered y → r.priority < (s.trips.src.get y).priority ∨
        (r.priority = (s.trips.src.get y).priority ∧ x.num ≤ y.num)) ∧
      (∀ top rest, s.trips.stack = top :: rest → r.priority < (s.trips.src.get top).priority)) ∧
    (selected s = none → exec (.takeTrip tag) s = replied 0x15 tag .none [] h) ∧
    (selected s = some x → ∃ b : Bool,
      let t : State := { h with
        trips := { s.trips with src := s.trips.src.set x { r with st := .inService }, stack := x :: s.trips.stack }
        link := { h.link with attn := b } }
      b = (selected t).isSome ∧
      exec (.takeTrip tag) s = replied 0x15 tag .ok
        (be1 x.num ++ be1 r.priority ++ [r.action.code] ++ be1 (s.trips.stack.length + 1 : Nat)) t)

/-- R119, R120, R121: END_TRIP ends the top of the stack, or the source named, which need be in service. An EDGE source with its repeat mark
set and a LEVEL source whose condition is true are raised again, acted as before and reported; any other goes quiet and its action is
released. -/
def Obligations.EndTripRaisesOrReleases : Prop :=
  ∀ (tag form source : Byte) (s : State), MayAnswer tag s →
    let h := heard s
    let ends (x : Source) : Prop :=
      let r := s.trips.src.get x
      let left := s.trips.stack.filter fun y => y ≠ x
      let becomes (r' : SourceRec) : State :=
        { h with trips := { s.trips with src := s.trips.src.set x r', stack := left } }
      let again := (r.mode = .edge ∧ r.rep = true) ∨ (r.mode = .level ∧ r.live = true)
      (again → exec (.endTrip tag form source) s =
        replied 0x16 tag .ok (be1 x.num ++ [1] ++ be1 left.length)
          (evalAttn (report (.tripRaised x r.priority r.action (decide (r.priority < s.trips.ceiling)) r.acted)
            (becomes { r with st := .pending, rep := false })))) ∧
      (¬again → exec (.endTrip tag form source) s =
        replied 0x16 tag .ok (be1 x.num ++ [0] ++ be1 left.length)
          (evalAttn (releaseAction x (becomes { r with st := .quiet, rep := false, acted := false }))))
    (1 < form.toNat → exec (.endTrip tag form source) s = replied 0x16 tag .range [] h) ∧
    (form = 0 → s.trips.stack = [] → exec (.endTrip tag form source) s = replied 0x16 tag .none [] h) ∧
    (∀ x rest, form = 0 → s.trips.stack = x :: rest → ends x) ∧
    (form = 1 → 23 < source.toNat → exec (.endTrip tag form source) s = replied 0x16 tag .range [] h) ∧
    (∀ x, form = 1 → Source.ofNat? source.toNat = some x →
      ((s.trips.src.get x).st ≠ .inService → exec (.endTrip tag form source) s = replied 0x16 tag .notFound [] h) ∧
      ((s.trips.src.get x).st = .inService → ends x))

/-- R112, R122, R123 (the reply's layout is log 12's, the model's choice): SET_SOURCE: RANGE for a number or code that is none, BUSY for a source that is not QUIET; otherwise the four items are
stored, a STOP source at priority 0 and a RETRACT source at priority 1 or 0, neither masked. The reply joins the list (log 11), and then
an unmasked LEVEL source whose condition is true latches. -/
def Obligations.SetSourceIsCheckedThenLatches : Prop :=
  ∀ (tag : Byte) (f : SourceFields) (s : State), MayAnswer tag s →
    let h := heard s
    (23 < f.source.toNat ∨ 1 < f.mode.toNat ∨ 3 < f.action.toNat ∨ 1 < f.masked.toNat →
      exec (.setSource tag f) s = replied 0x11 tag .range [] h) ∧
    (∀ x mode action masked, Source.ofNat? f.source.toNat = some x → srcMode? f.mode = some mode →
      action? f.action = some action → yesNo? f.masked = some masked →
      let r := s.trips.src.get x
      let priority : Nat := match action with
        | .stop => 0
        | .retract => min 1 f.priority.toNat
        | _ => min 7 f.priority.toNat
      let hidden : Bool := masked && (action == .alarm || action == .hold)
      let r' : SourceRec := { r with mode := mode, priority := priority, action := action, masked := hidden }
      let same : Bool := priority = f.priority.toNat ∧ hidden = masked
      (r.st ≠ .quiet → exec (.setSource tag f) s = replied 0x11 tag .busy [] h) ∧
      (r.st = .quiet →
        let reply : Reply :=
          { type := 0x11, tag := tag, status := if same then .ok else .adjusted,
            content := [f.mode] ++ be1 priority ++ [f.action, if hidden then 1 else 0] }
        let answered := addReply reply (setSource x r' h)
        (hidden = false → mode = .level → r.live = true →
          exec (.setSource tag f) s = .next (evalAttn (edge x answered))) ∧
        (hidden = true ∨ mode = .edge ∨ r.live = false → exec (.setSource tag f) s = .next (evalAttn answered))))

/-- R114, R124, R125, R129: SET_CEILING clamps and stores the ceiling; in order of number, every PENDING source then eligible
and not acted is marked acted and its action applied, as `ActionsEnterAndLeaveSets` says; the reply names these, and ATTN is
evaluated. No source's other items change, but that a retract which ends or drops a move clears its stand's POSITION condition
(for a dropped FEEDBACK move log 9's inference). RAISE_TRIP hands COMMANDED an edge and answers with its state. -/
def Obligations.CeilingActsEligibleSources : Prop :=
  ∀ (tag ceiling : Byte) (s : State), MayAnswer tag s →
    let h := heard s
    let c := clampNat 2 8 ceiling.toNat
    let acts (x : Source) : Bool :=
      (s.trips.src.get x).st == .pending && (s.trips.src.get x).priority < c && !(s.trips.src.get x).acted
    let acting (u : State) (x : Source) : State :=
      let r := u.trips.src.get x
      if r.st = .pending ∧ r.priority < c ∧ r.acted = false then
        applyAction x r.action (setSource x { r with acted := true } u)
      else u
    let t := evalAttn (Source.all.foldl acting { h with trips := { h.trips with ceiling := c } })
    let clears (x : Source) : Prop := ∃ k y, x = .position k ∧ acts y = true ∧
      ((s.trips.src.get y).action = .retract ∨ (s.trips.src.get y).action = .stop) ∧ k ∈ scope y ∧
      s.retracting k = false ∧ (s.eng.get k).act ≠ .idle ∧ (s.eng.get k).act.isOf .retract = false
    (exec (.setCeiling tag ceiling) s =
        replied 0x12 tag (if c = ceiling.toNat then .ok else .adjusted) (be1 c ++ sourceSet (Source.all.filter acts)) t ∧
      Source.all.map Source.num = List.range 24 ∧
      t.trips.ceiling = c ∧ t.trips.stack = s.trips.stack ∧ t.trips.inputs = s.trips.inputs ∧
      (∀ x, t.trips.src.get x = { s.trips.src.get x with
        acted := (s.trips.src.get x).acted || acts x, live := (t.trips.src.get x).live }) ∧
      (∀ x, (t.trips.src.get x).live = true ↔ (s.trips.src.get x).live = true ∧ ¬clears x) ∧
      (∀ k x a, ({ source := x, action := a } : Entry) ∈ t.ilk.sets.get k ↔
        ({ source := x, action := a } : Entry) ∈ s.ilk.sets.get k ∨
          (acts x = true ∧ (s.trips.src.get x).action = a ∧ k ∈ scope x)) ∧
      t.link.attn = (selected t).isSome) ∧
    (let t := edge .commanded h
     exec (.raiseTrip tag) s = replied 0x17 tag .ok [(t.trips.src.get .commanded).st.code] t ∧
     (t.trips.src.get .commanded).st =
       if (s.trips.src.get .commanded).masked = false ∧ (s.trips.src.get .commanded).st = .quiet then .pending
       else (s.trips.src.get .commanded).st)

/-! ### Interlocks and resets -/

/-- R133, R138, R149, R152: CLEAR_STOP is refused with LOCKED under the lock and with TRIPPED while a STOP source is acted, and otherwise
releases the line. UNLOCK is refused with TRIPPED unless LINK_SILENT is QUIET, and otherwise opens the lock and starts supervision. -/
def Obligations.ClearStopAndUnlockByState : Prop :=
  ∀ (tag : Byte) (s : State), MayAnswer tag s →
    let h := heard s
    let stopIs : List Byte := [if s.ilk.stop then 1 else 0]
    let lockIs : List Byte := [if s.ilk.lockOpen then 1 else 0]
    let stopped := ∃ x, (s.trips.src.get x).action = .stop ∧ (s.trips.src.get x).acted = true
    (s.ilk.lockOpen = false → exec (.clearStop tag) s = replied 0x18 tag .locked stopIs h) ∧
    (s.ilk.lockOpen = true → stopped → exec (.clearStop tag) s = replied 0x18 tag .tripped stopIs h) ∧
    (s.ilk.lockOpen = true → ¬stopped →
      exec (.clearStop tag) s = replied 0x18 tag .ok [0] { h with ilk := { s.ilk with stop := false } }) ∧
    ((s.trips.src.get .linkSilent).st ≠ .quiet → exec (.unlock tag) s = replied 0x19 tag .tripped lockIs h) ∧
    ((s.trips.src.get .linkSilent).st = .quiet →
      exec (.unlock tag) s = replied 0x19 tag .ok [1]
        { s with
          ilk := { s.ilk with lockOpen := true }
          link := { s.link with supLeft := if s.link.supTime = 0 then none else some s.link.supTime } })

/-- R19, R22, R49, R64, R83, R107, R127, R139, R140, R165: RESTART is refused with RUNNING while the STOP line is released or an engine is not
at rest. Accepted, it clears every block's running state and keeps its configuration, then makes the latching check of every source and
evaluates ATTN. The sources are checked in order of number (log 10, the model's choice). -/
def Obligations.RestartClearsRunningState : Prop :=
  ∀ (tag : Byte) (s : State), MayAnswer tag s →
    let h := heard s
    let moving := ∃ k, (s.eng.get k).act ≠ .idle ∨ (s.eng.get k).pending ≠ []
    (s.ilk.stop = false ∨ moving → exec (.restart tag) s = replied 0x1A tag .running [] h) ∧
    (s.ilk.stop = true → ¬moving → ∃ u,
      exec (.restart tag) s = replied 0x1A tag .ok [] (evalAttn (Source.all.foldl latchCheck u)) ∧
      u = { h with
        chan := { recs := u.chan.recs, biteIn := .fill false, overload := .fill false }
        counters := u.counters
        trk := { s.trk with
          queues := .fill [], underEntry := none, underStand := .fill none, underExit := none,
          acc := .fill { sum := 0, count := 0 }, headWatch := .fill none, tailWatch := .fill none,
          entry := if s.trk.strip then .rejected else .empty, entryDist := 0, poolFull := false }
        sched := { s.sched with coils := [] }
        gauge := { s.gauge with stands := u.gauge.stands, m := 0 }
        trips := { s.trips with
          src := u.trips.src, stack := [],
          inputs := { chan := u.trips.inputs.chan, exitKind := none, strip := s.trk.strip } }
        ilk := { s.ilk with sets := .fill [], cause := .restart }
        link := { h.link with reports := [], lost := s.link.lost || !s.link.reports.isEmpty } } ∧
      (∀ c, u.chan.recs.get c =
        let r := s.chan.recs.get c
        if r.enabled then
          { r with
            st := .settling, filter := [], filtered := none, last := none, invalidCount := 0, rangeCount := 0,
            staleLeft := some r.staleTime }
        else r) ∧
      (∀ c, u.trips.inputs.chan.get c = (u.chan.recs.get c).st) ∧
      (∀ k, u.counters.get k = { s.counters.get k with tally := 0, rest := 0 }) ∧
      (∀ k, u.gauge.stands.get k =
        { s.gauge.stands.get k with
          href := none, lockonCount := 0, stepLimited := false, atLimit := false,
          st := if (s.gauge.stands.get k).mode = .off then .off else .armed }) ∧
      (∀ x, u.trips.src.get x =
        { s.trips.src.get x with
          st := .quiet, acted := false, rep := false,
          live := match x with
            | .estop e => (s.ilk.estop.get e).demanded
            | _ => false }) ∧
      (∀ x v, latchCheck v x =
        if (v.trips.src.get x).masked = false ∧ (v.trips.src.get x).mode = .level ∧ (v.trips.src.get x).st = .quiet ∧
          (v.trips.src.get x).live = true then edge x v else v))

/-- R18, R22, R48, R63, R82, R104, R106, R109, R126, R142, R155, R165: the values after a power-on reset. The levels of the lines are the
model's choice (log 1), and that STARTED is already being sent its inference (log 5). The part's keys and counts of its own start at 0
and 1 (logs 8 and 14, the model's choice). -/
def Obligations.ResetValues : Prop :=
  let s := State.reset
  (∀ c, s.chan.recs.get c =
    { enabled := false, zero := 0, span := 65535,
      lo := (match c with
        | .force _ => -2000
        | _ => 0),
      hi := (match c with
        | .force _ => 60000
        | _ => 30000),
      n := 4, staleTime := 20, st := .off, filter := [], filtered := none, last := none, invalidCount := 0,
      rangeCount := 0, staleLeft := none }) ∧
  (∀ k, s.chan.biteIn.get k = false ∧ s.chan.overload.get k = false) ∧ s.slots = .fill none ∧
  (∀ k, s.counters.get k = { prescaler := 1, perCount := 1000, tally := 0, rest := 0 } ∧ s.trk.queues.get k = []) ∧
  (∀ k, s.trk.spanLen.get k = (match k with
    | .entry => 3000
    | .after .s6 => 6000
    | .after _ => 4000)) ∧
  s.trk.segLen = 2000 ∧ s.trk.headWindow = 500 ∧ s.trk.tailWindow = 500 ∧ s.trk.debounce = 10 ∧ s.trk.nextId = 0 ∧
  s.trk.used = 0 ∧ s.trk.entry = .empty ∧ s.trk.strip = false ∧ s.trk.poolFull = false ∧ s.trk.entryDist = 0 ∧
  s.trk.stripTimer = none ∧ (∀ p, s.trk.acc.get p = { sum := 0, count := 0 } ∧ s.trk.under p = none) ∧
  (∀ k, s.trk.headWatch.get k = none ∧ s.trk.tailWatch.get k = none) ∧ s.sched.nextKey = 0 ∧
  s.sched.queue = [] ∧ s.sched.coils = [] ∧ s.sched.lastCoil = 0 ∧
  s.gauge.db = 10 ∧ s.gauge.gMon = 32 ∧ s.gauge.lockonSeg = 2 ∧ s.gauge.m = 0 ∧
  (∀ k, s.gauge.stands.get k =
    { mode := .off, href := none, st := .off, lockonCount := 0, stepLimited := false, atLimit := false }) ∧
  (∀ k, s.eng.get k =
    { ref := 20000, act := .idle, pending := [], retracted := true, settleLeft := none, posErr := 0,
      cfg := { gapMin := 1000, gapMax := 20000, f0 := 0, m := 5000, fMax := 30000, biteOn := 2000, biteOff := 1000,
               setRate := 20, agcRate := 5, retractRate := 200, stepMax := 200, settleTime := 50, inPos := 20,
               posErrLimit := 300, posErrCount := 10 } } ∧
    s.port.get k = { last := some 20000, sends := 1 }) ∧
  s.trips.ceiling = 8 ∧ s.trips.stack = [] ∧
  s.trips.inputs = { chan := .fill .off, exitKind := none, strip := false } ∧
  (∀ x, let r := s.trips.src.get x
    r.masked = false ∧ r.st = .quiet ∧ r.acted = false ∧ r.rep = false ∧ r.live = false ∧
    (r.mode, r.priority, r.action) = (match x with
      | .overload _ => (.level, 1, .retract)
      | .position _ => (.level, 3, .hold)
      | .exitGauge | .entryGauge => (.level, 5, .alarm)
      | .channelFault => (.level, 4, .alarm)
      | .estop _ => (.level, 0, .stop)
      | .monitorLimit => (.edge, 6, .alarm)
      | .poolFull => (.edge, 7, .alarm)
      | .stripLost | .linkSilent | .commanded => (.edge, 0, .stop))) ∧
  s.ilk.stop = true ∧ s.ilk.lockOpen = false ∧ s.ilk.debounce = 5 ∧ s.ilk.cause = .power ∧
  (∀ k, s.ilk.sets.get k = []) ∧ (∀ e, s.ilk.estop.get e = { demanded := false, timer := none }) ∧
  s.link.rx = .hunt ∧ s.link.supTime = 250 ∧ s.link.supLeft = none ∧ s.link.replies = [] ∧ s.link.reports = [] ∧
  s.link.lost = false ∧ s.link.attn = false ∧ s.link.gapLeft = none ∧ s.link.firstChoice = true ∧
  s.link.lastSent = .report ∧ s.link.rate = .mbit1 ∧
  s.pins = { strip := false, estopLow := .fill false, straps := .mbit1, reset := false } ∧ s.pending = [] ∧
  s.link.sending = some ((Report.started .power).frame false)

/-- R135, R141, R142, R143, R155, R165: while RESET is asserted the STOP output is asserted, ATTN released and nothing but the lines and the resets
taken; its release, and power-on, leave every block at its reset values for the levels then on the lines, with STARTED and its cause
the first report. That STARTED is in transmission at once, with the report the kind sent last, is log 5's inference. That a held part
cuts off its frame, takes no command, and at a change of a line follows its level and does nothing else, is log 6's. A power-on reset under RESET stays held (log 7), and a power-on is one step, from
power applied to the supply being good (log 19), both the model's choice. -/
def Obligations.ResetCommandsStartAfresh : Prop :=
  ∀ s : State,
    let fresh (cause : ResetCause) (p : Pins) : State := { State.reset with
      trk := { State.reset.trk with stripTimer := if p.strip then some 10 else none }
      ilk := { State.reset.ilk with
        cause := cause
        estop := .ofFn fun e => { demanded := false, timer := if p.estopLow.get e then some 5 else none } }
      link := { State.reset.link with
        rate := p.straps, sending := some ((Report.started cause).frame false), lastSent := .report }
      pins := p
      pending := s.pending }
    exec .resetAsserted s = .next { s with
      pins := { s.pins with reset := true }
      ilk := { s.ilk with stop := true }
      link := { s.link with attn := false, sending := none } } ∧
    (s.pins.reset = false → exec .powerOnReset s = .next (fresh .power s.pins)) ∧
    (s.pins.reset = true → exec .powerOnReset s =
      .next { fresh .power s.pins with
        port := .fill { last := none, sends := 0 }
        link := { (fresh .power s.pins).link with
          reports := [.started .power], sending := none, lastSent := .reply } }) ∧
    (s.pins.reset = true → exec .resetReleased s = .next (fresh .line { s.pins with reset := false })) ∧
    (s.pins.reset = false → exec .resetReleased s = .next s) ∧
    (∀ b, s.pins.reset = true → exec (.stripPresentChange b) s = .next { s with pins := { s.pins with strip := b } }) ∧
    (∀ e b, s.pins.reset = true →
      exec (.estopInputChange e b) s = .next { s with pins := { s.pins with estopLow := s.pins.estopLow.set e b } }) ∧
    (∀ c : Instr, s.pins.reset = true → c.wf = true →
      (∀ b, c ≠ .stripPresentChange b) → (∀ e b, c ≠ .estopInputChange e b) → c ≠ .powerOnReset → c ≠ .resetAsserted →
      c ≠ .resetReleased → exec c s = .next s)

/-! ### Invariants of every step -/

/-- R85, R87, R89, R96, R104: every step keeps each stand's reference, and the targets of all its moves, inside its window, and a ramp within the
updates its distance needs. -/
def Obligations.StepKeepsReferencesInWindow : Prop := ∀ s t : State, EnginesOk s → step s = .next t → EnginesOk t

/-- R88: every step keeps a tag's slot held exactly while one LINK move with that tag exists at the stand the slot names. -/
def Obligations.StepKeepsSlotsWithMoves : Prop := ∀ s t : State, SlotsOk s → step s = .next t → SlotsOk t

/-- R108, R111 to R116, R120 to R122, R128, R132: every step keeps the source records legal, the stack rising, the action sets one entry for
each acted source in its scope, and the STOP line asserted while a STOP source is acted. -/
def Obligations.StepKeepsActionsOfActedSources : Prop := ∀ s t : State, ActionsOk s → step s = .next t → ActionsOk t

/-- R71, R72, R81, R109, R110, R118: every step keeps the AGC states at what the table derives with the trim within its limits, ATTN at whether
TAKE_TRIP would select a source, and the trip controller's kept inputs, with the conditions it derives from them, at what the other
blocks hold. -/
def Obligations.StepKeepsDerivedStates : Prop :=
  ∀ s t : State, step s = .next t → (GaugeOk s → GaugeOk t) ∧ (AttnOk s → AttnOk t) ∧ (InputsOk s → InputsOk t)

/-- R24, R25, R26, R34, R51, R53, R148, R163: every step keeps the pool, the coil table, the queues and the reply list within their capacities, the coil
table in its order, and the distances in every span queue in order and within the span. -/
def Obligations.StepKeepsStoresAndSpans : Prop :=
  ∀ s t : State, step s = .next t →
    (RoomOk s → RoomOk t) ∧ (CoilsOk s.sched → CoilsOk t.sched) ∧ (QueuesOk s.trk → QueuesOk t.trk)

/-- The state after a power-on reset meets every invariant. -/
def Obligations.ResetMeetsInvariants : Prop :=
  EnginesOk State.reset ∧ SlotsOk State.reset ∧ ActionsOk State.reset ∧ GaugeOk State.reset ∧ AttnOk State.reset ∧
    InputsOk State.reset ∧ RoomOk State.reset ∧ CoilsOk State.reset.sched ∧ QueuesOk State.reset.trk
end

