-- ==== Sys2Proof/Laws/Tables.lean ====
section
/-! SUPPORT. The tables of one entry for each stand, tag, span and so on: reading what was written, and equality entry by
entry. -/
namespace Sys2Proof

namespace PerStand
variable {α : Type}
@[simp] theorem get_fill (x : α) (i : Stand) : (fill x).get i = x := by cases i <;> rfl
@[simp] theorem get_ofFn (f : Stand → α) (i : Stand) : (ofFn f).get i = f i := by cases i <;> rfl
theorem get_set (t : PerStand α) (i j : Stand) (x : α) : (t.set i x).get j = if j = i then x else t.get j := by
  cases i <;> cases j <;> rfl
@[simp] theorem get_set_self (t : PerStand α) (i : Stand) (x : α) : (t.set i x).get i = x := by simp [get_set]
theorem get_set_ne (t : PerStand α) {i j : Stand} (x : α) (h : j ≠ i) : (t.set i x).get j = t.get j := by simp [get_set, h]
theorem eq_of_get {t u : PerStand α} (h : ∀ i, t.get i = u.get i) : t = u := by
  cases t
  cases u
  simp only [mk.injEq]
  exact ⟨h .s1, h .s2, h .s3, h .s4, h .s5, h .s6⟩
@[simp] theorem set_set (t : PerStand α) (i : Stand) (x y : α) : (t.set i x).set i y = t.set i y := by cases i <;> rfl
@[simp] theorem set_get (t : PerStand α) (i : Stand) : t.set i (t.get i) = t := by cases i <;> rfl
end PerStand

namespace PerEStop
variable {α : Type}
@[simp] theorem get_fill (x : α) (i : EStop) : (fill x).get i = x := by cases i <;> rfl
@[simp] theorem get_ofFn (f : EStop → α) (i : EStop) : (ofFn f).get i = f i := by cases i <;> rfl
theorem get_set (t : PerEStop α) (i j : EStop) (x : α) : (t.set i x).get j = if j = i then x else t.get j := by
  cases i <;> cases j <;> rfl
@[simp] theorem get_set_self (t : PerEStop α) (i : EStop) (x : α) : (t.set i x).get i = x := by simp [get_set]
theorem get_set_ne (t : PerEStop α) {i j : EStop} (x : α) (h : j ≠ i) : (t.set i x).get j = t.get j := by simp [get_set, h]
theorem eq_of_get {t u : PerEStop α} (h : ∀ i, t.get i = u.get i) : t = u := by
  cases t
  cases u
  simp only [mk.injEq]
  exact ⟨h .a, h .b, h .c, h .d⟩
@[simp] theorem set_set (t : PerEStop α) (i : EStop) (x y : α) : (t.set i x).set i y = t.set i y := by cases i <;> rfl
@[simp] theorem set_get (t : PerEStop α) (i : EStop) : t.set i (t.get i) = t := by cases i <;> rfl
end PerEStop

namespace PerTag
variable {α : Type}
@[simp] theorem get_fill (x : α) (i : Tag) : (fill x).get i = x := by cases i <;> rfl
@[simp] theorem get_ofFn (f : Tag → α) (i : Tag) : (ofFn f).get i = f i := by cases i <;> rfl
theorem get_set (t : PerTag α) (i j : Tag) (x : α) : (t.set i x).get j = if j = i then x else t.get j := by
  cases i <;> cases j <;> rfl
@[simp] theorem get_set_self (t : PerTag α) (i : Tag) (x : α) : (t.set i x).get i = x := by simp [get_set]
theorem get_set_ne (t : PerTag α) {i j : Tag} (x : α) (h : j ≠ i) : (t.set i x).get j = t.get j := by simp [get_set, h]
theorem eq_of_get {t u : PerTag α} (h : ∀ i, t.get i = u.get i) : t = u := by
  cases t
  cases u
  simp only [mk.injEq]
  exact ⟨h .t0, h .t1, h .t2, h .t3, h .t4, h .t5, h .t6, h .t7⟩
@[simp] theorem set_set (t : PerTag α) (i : Tag) (x y : α) : (t.set i x).set i y = t.set i y := by cases i <;> rfl
@[simp] theorem set_get (t : PerTag α) (i : Tag) : t.set i (t.get i) = t := by cases i <;> rfl
end PerTag

namespace PerSpan
variable {α : Type}
@[simp] theorem get_fill (x : α) (i : Span) : (fill x).get i = x := by cases i <;> simp [get, fill]
@[simp] theorem get_ofFn (f : Span → α) (i : Span) : (ofFn f).get i = f i := by cases i <;> simp [get, ofFn]
theorem get_set (t : PerSpan α) (i j : Span) (x : α) : (t.set i x).get j = if j = i then x else t.get j := by
  cases i <;> cases j <;> simp [get, set, PerStand.get_set]
@[simp] theorem get_set_self (t : PerSpan α) (i : Span) (x : α) : (t.set i x).get i = x := by simp [get_set]
theorem get_set_ne (t : PerSpan α) {i j : Span} (x : α) (h : j ≠ i) : (t.set i x).get j = t.get j := by simp [get_set, h]
theorem eq_of_get {t u : PerSpan α} (h : ∀ i, t.get i = u.get i) : t = u := by
  cases t
  cases u
  simp only [mk.injEq]
  exact ⟨h .entry, PerStand.eq_of_get fun k => h (.after k)⟩
@[simp] theorem set_set (t : PerSpan α) (i : Span) (x y : α) : (t.set i x).set i y = t.set i y := by
  cases i <;> simp [set]
@[simp] theorem set_get (t : PerSpan α) (i : Span) : t.set i (t.get i) = t := by cases i <;> simp [set, get]
@[simp] theorem get_entry (t : PerSpan α) : t.get .entry = t.entry := rfl
@[simp] theorem get_after (t : PerSpan α) (k : Stand) : t.get (.after k) = t.after.get k := rfl
end PerSpan

namespace PerPoint
variable {α : Type}
@[simp] theorem get_fill (x : α) (i : Point) : (fill x).get i = x := by cases i <;> simp [get, fill]
@[simp] theorem get_ofFn (f : Point → α) (i : Point) : (ofFn f).get i = f i := by cases i <;> simp [get, ofFn]
theorem get_set (t : PerPoint α) (i j : Point) (x : α) : (t.set i x).get j = if j = i then x else t.get j := by
  cases i <;> cases j <;> simp [get, set, PerStand.get_set]
@[simp] theorem get_set_self (t : PerPoint α) (i : Point) (x : α) : (t.set i x).get i = x := by simp [get_set]
theorem get_set_ne (t : PerPoint α) {i j : Point} (x : α) (h : j ≠ i) : (t.set i x).get j = t.get j := by simp [get_set, h]
theorem eq_of_get {t u : PerPoint α} (h : ∀ i, t.get i = u.get i) : t = u := by
  cases t
  cases u
  simp only [mk.injEq]
  exact ⟨h .entry, PerStand.eq_of_get fun k => h (.stand k), h .exit⟩
@[simp] theorem set_set (t : PerPoint α) (i : Point) (x y : α) : (t.set i x).set i y = t.set i y := by
  cases i <;> simp [set]
@[simp] theorem set_get (t : PerPoint α) (i : Point) : t.set i (t.get i) = t := by cases i <;> simp [set, get]
@[simp] theorem get_entry (t : PerPoint α) : t.get .entry = t.entry := rfl
@[simp] theorem get_stand (t : PerPoint α) (k : Stand) : t.get (.stand k) = t.stand.get k := rfl
@[simp] theorem get_exit (t : PerPoint α) : t.get .exit = t.exit := rfl
end PerPoint

namespace PerChannel
variable {α : Type}
@[simp] theorem get_fill (x : α) (i : Channel) : (fill x).get i = x := by cases i <;> simp [get, fill]
@[simp] theorem get_ofFn (f : Channel → α) (i : Channel) : (ofFn f).get i = f i := by cases i <;> simp [get, ofFn]
theorem get_set (t : PerChannel α) (i j : Channel) (x : α) : (t.set i x).get j = if j = i then x else t.get j := by
  cases i <;> cases j <;> simp [get, set, PerStand.get_set]
@[simp] theorem get_set_self (t : PerChannel α) (i : Channel) (x : α) : (t.set i x).get i = x := by simp [get_set]
theorem get_set_ne (t : PerChannel α) {i j : Channel} (x : α) (h : j ≠ i) : (t.set i x).get j = t.get j := by simp [get_set, h]
theorem eq_of_get {t u : PerChannel α} (h : ∀ i, t.get i = u.get i) : t = u := by
  cases t
  cases u
  simp only [mk.injEq]
  exact ⟨PerStand.eq_of_get fun k => h (.force k), PerStand.eq_of_get fun k => h (.position k), h .entry, h .exit⟩
@[simp] theorem set_set (t : PerChannel α) (i : Channel) (x y : α) : (t.set i x).set i y = t.set i y := by
  cases i <;> simp [set]
@[simp] theorem set_get (t : PerChannel α) (i : Channel) : t.set i (t.get i) = t := by cases i <;> simp [set, get]
@[simp] theorem get_force (t : PerChannel α) (k : Stand) : t.get (.force k) = t.force.get k := rfl
@[simp] theorem get_position (t : PerChannel α) (k : Stand) : t.get (.position k) = t.position.get k := rfl
@[simp] theorem get_entry (t : PerChannel α) : t.get .entry = t.entry := rfl
@[simp] theorem get_exit (t : PerChannel α) : t.get .exit = t.exit := rfl
end PerChannel

namespace PerSource
variable {α : Type}
@[simp] theorem get_fill (x : α) (i : Source) : (fill x).get i = x := by cases i <;> simp [get, fill]
@[simp] theorem get_ofFn (f : Source → α) (i : Source) : (ofFn f).get i = f i := by cases i <;> simp [get, ofFn]
theorem get_set (t : PerSource α) (i j : Source) (x : α) : (t.set i x).get j = if j = i then x else t.get j := by
  cases i <;> cases j <;> simp [get, set, PerStand.get_set, PerEStop.get_set]
@[simp] theorem get_set_self (t : PerSource α) (i : Source) (x : α) : (t.set i x).get i = x := by simp [get_set]
theorem get_set_ne (t : PerSource α) {i j : Source} (x : α) (h : j ≠ i) : (t.set i x).get j = t.get j := by simp [get_set, h]
theorem eq_of_get {t u : PerSource α} (h : ∀ i, t.get i = u.get i) : t = u := by
  cases t
  cases u
  simp only [mk.injEq]
  exact ⟨PerStand.eq_of_get fun k => h (.overload k), PerStand.eq_of_get fun k => h (.position k), h .stripLost, h .exitGauge, h .entryGauge, h .channelFault, PerEStop.eq_of_get fun k => h (.estop k), h .linkSilent, h .commanded, h .monitorLimit, h .poolFull⟩
@[simp] theorem set_set (t : PerSource α) (i : Source) (x y : α) : (t.set i x).set i y = t.set i y := by
  cases i <;> simp [set]
@[simp] theorem set_get (t : PerSource α) (i : Source) : t.set i (t.get i) = t := by cases i <;> simp [set, get]
@[simp] theorem get_overload (t : PerSource α) (k : Stand) : t.get (.overload k) = t.overload.get k := rfl
@[simp] theorem get_position (t : PerSource α) (k : Stand) : t.get (.position k) = t.position.get k := rfl
@[simp] theorem get_stripLost (t : PerSource α) : t.get .stripLost = t.stripLost := rfl
@[simp] theorem get_exitGauge (t : PerSource α) : t.get .exitGauge = t.exitGauge := rfl
@[simp] theorem get_entryGauge (t : PerSource α) : t.get .entryGauge = t.entryGauge := rfl
@[simp] theorem get_channelFault (t : PerSource α) : t.get .channelFault = t.channelFault := rfl
@[simp] theorem get_estop (t : PerSource α) (k : EStop) : t.get (.estop k) = t.estop.get k := rfl
@[simp] theorem get_linkSilent (t : PerSource α) : t.get .linkSilent = t.linkSilent := rfl
@[simp] theorem get_commanded (t : PerSource α) : t.get .commanded = t.commanded := rfl
@[simp] theorem get_monitorLimit (t : PerSource α) : t.get .monitorLimit = t.monitorLimit := rfl
@[simp] theorem get_poolFull (t : PerSource α) : t.get .poolFull = t.poolFull := rfl
end PerSource

/-! ### The lists of all -/

@[simp] theorem Stand.mem_all (k : Stand) : k ∈ Stand.all := by cases k <;> decide
@[simp] theorem EStop.mem_all (e : EStop) : e ∈ EStop.all := by cases e <;> decide
@[simp] theorem Source.mem_all (x : Source) : x ∈ Source.all := by
  cases x with
  | overload k => cases k <;> decide
  | position k => cases k <;> decide
  | estop e => cases e <;> decide
  | _ => decide

theorem Source.all_nodup : Source.all.Nodup := by decide
theorem Stand.all_nodup : Stand.all.Nodup := by decide

/-- A source's number determines it, and the list of all is in the order of the numbers. -/
theorem Source.all_rising : Source.all.Pairwise fun x y => x.num < y.num := by decide

@[simp] theorem Source.ofNat?_num (x : Source) : Source.ofNat? x.num = some x := by
  cases x with
  | overload k => cases k <;> rfl
  | position k => cases k <;> rfl
  | estop e => cases e <;> rfl
  | _ => rfl

@[simp] theorem Channel.ofNat?_num (c : Channel) : Channel.ofNat? c.num = some c := by
  cases c with
  | force k => cases k <;> rfl
  | position k => cases k <;> rfl
  | _ => rfl

theorem Stand.ofNat?_eq_some {n : Nat} {k : Stand} (h : Stand.ofNat? n = some k) : n = k.num := by
  unfold Stand.ofNat? at h
  split at h <;> cases h <;> rfl

theorem Tag.ofNat?_eq_some {n : Nat} {t : Tag} (h : Tag.ofNat? n = some t) : n = t.num := by
  unfold Tag.ofNat? at h
  split at h <;> cases h <;> rfl

theorem Stand.ofNat?_isSome (n : Nat) : (Stand.ofNat? n).isSome = true ↔ 1 ≤ n ∧ n ≤ 6 := by
  match n with
  | 0 | 1 | 2 | 3 | 4 | 5 | 6 => decide
  | n + 7 => simp [Stand.ofNat?]

theorem Tag.ofNat?_isSome (n : Nat) : (Tag.ofNat? n).isSome = true ↔ n ≤ 7 := by
  match n with
  | 0 | 1 | 2 | 3 | 4 | 5 | 6 | 7 => decide
  | n + 8 => simp [Tag.ofNat?]

theorem Channel.ofNat?_isSome (n : Nat) : (Channel.ofNat? n).isSome = true ↔ n ≤ 13 := by
  simp [Channel.ofNat?, Channel.all, Stand.all]
  omega

theorem Source.ofNat?_isSome (n : Nat) : (Source.ofNat? n).isSome = true ↔ n ≤ 23 := by
  simp [Source.ofNat?, Source.all, Stand.all, EStop.all]
  omega

end Sys2Proof
end

