-- ==== Sys2Proof/Laws/State.lean ====
section
/-! SUPPORT. What each setter of Machine/Ops.lean does to each field of the state, and what the readings of Machine/Flags.lean depend
on. -/
namespace Sys2Proof.Machine

/-! ### setEngine -/

section
variable (k : Stand) (e : Engine) (s : State)
@[simp] theorem setEngine_chan : (setEngine k e s).chan = s.chan := rfl
@[simp] theorem setEngine_counters : (setEngine k e s).counters = s.counters := rfl
@[simp] theorem setEngine_trk : (setEngine k e s).trk = s.trk := rfl
@[simp] theorem setEngine_sched : (setEngine k e s).sched = s.sched := rfl
@[simp] theorem setEngine_gauge : (setEngine k e s).gauge = s.gauge := rfl
@[simp] theorem setEngine_eng : (setEngine k e s).eng = s.eng.set k e := rfl
@[simp] theorem setEngine_slots : (setEngine k e s).slots = s.slots := rfl
@[simp] theorem setEngine_port : (setEngine k e s).port = s.port := rfl
@[simp] theorem setEngine_trips : (setEngine k e s).trips = s.trips := rfl
@[simp] theorem setEngine_ilk : (setEngine k e s).ilk = s.ilk := rfl
@[simp] theorem setEngine_link : (setEngine k e s).link = s.link := rfl
@[simp] theorem setEngine_pins : (setEngine k e s).pins = s.pins := rfl
@[simp] theorem setEngine_pending : (setEngine k e s).pending = s.pending := rfl
end

/-! ### setAgc -/

section
variable (k : Stand) (g : AgcStand) (s : State)
@[simp] theorem setAgc_chan : (setAgc k g s).chan = s.chan := rfl
@[simp] theorem setAgc_counters : (setAgc k g s).counters = s.counters := rfl
@[simp] theorem setAgc_trk : (setAgc k g s).trk = s.trk := rfl
@[simp] theorem setAgc_sched : (setAgc k g s).sched = s.sched := rfl
@[simp] theorem setAgc_gauge : (setAgc k g s).gauge = { s.gauge with stands := s.gauge.stands.set k g } := rfl
@[simp] theorem setAgc_eng : (setAgc k g s).eng = s.eng := rfl
@[simp] theorem setAgc_slots : (setAgc k g s).slots = s.slots := rfl
@[simp] theorem setAgc_port : (setAgc k g s).port = s.port := rfl
@[simp] theorem setAgc_trips : (setAgc k g s).trips = s.trips := rfl
@[simp] theorem setAgc_ilk : (setAgc k g s).ilk = s.ilk := rfl
@[simp] theorem setAgc_link : (setAgc k g s).link = s.link := rfl
@[simp] theorem setAgc_pins : (setAgc k g s).pins = s.pins := rfl
@[simp] theorem setAgc_pending : (setAgc k g s).pending = s.pending := rfl
end

/-! ### setSource -/

section
variable (x : Source) (r : SourceRec) (s : State)
@[simp] theorem setSource_chan : (setSource x r s).chan = s.chan := rfl
@[simp] theorem setSource_counters : (setSource x r s).counters = s.counters := rfl
@[simp] theorem setSource_trk : (setSource x r s).trk = s.trk := rfl
@[simp] theorem setSource_sched : (setSource x r s).sched = s.sched := rfl
@[simp] theorem setSource_gauge : (setSource x r s).gauge = s.gauge := rfl
@[simp] theorem setSource_eng : (setSource x r s).eng = s.eng := rfl
@[simp] theorem setSource_slots : (setSource x r s).slots = s.slots := rfl
@[simp] theorem setSource_port : (setSource x r s).port = s.port := rfl
@[simp] theorem setSource_trips : (setSource x r s).trips = { s.trips with src := s.trips.src.set x r } := rfl
@[simp] theorem setSource_ilk : (setSource x r s).ilk = s.ilk := rfl
@[simp] theorem setSource_link : (setSource x r s).link = s.link := rfl
@[simp] theorem setSource_pins : (setSource x r s).pins = s.pins := rfl
@[simp] theorem setSource_pending : (setSource x r s).pending = s.pending := rfl
end

/-! ### setChannel -/

section
variable (c : Channel) (r : ChannelRec) (s : State)
@[simp] theorem setChannel_chan : (setChannel c r s).chan = { s.chan with recs := s.chan.recs.set c r } := rfl
@[simp] theorem setChannel_counters : (setChannel c r s).counters = s.counters := rfl
@[simp] theorem setChannel_trk : (setChannel c r s).trk = s.trk := rfl
@[simp] theorem setChannel_sched : (setChannel c r s).sched = s.sched := rfl
@[simp] theorem setChannel_gauge : (setChannel c r s).gauge = s.gauge := rfl
@[simp] theorem setChannel_eng : (setChannel c r s).eng = s.eng := rfl
@[simp] theorem setChannel_slots : (setChannel c r s).slots = s.slots := rfl
@[simp] theorem setChannel_port : (setChannel c r s).port = s.port := rfl
@[simp] theorem setChannel_trips : (setChannel c r s).trips = s.trips := rfl
@[simp] theorem setChannel_ilk : (setChannel c r s).ilk = s.ilk := rfl
@[simp] theorem setChannel_link : (setChannel c r s).link = s.link := rfl
@[simp] theorem setChannel_pins : (setChannel c r s).pins = s.pins := rfl
@[simp] theorem setChannel_pending : (setChannel c r s).pending = s.pending := rfl
end

/-! ### setActions -/

section
variable (k : Stand) (es : List Entry) (s : State)
@[simp] theorem setActions_chan : (setActions k es s).chan = s.chan := rfl
@[simp] theorem setActions_counters : (setActions k es s).counters = s.counters := rfl
@[simp] theorem setActions_trk : (setActions k es s).trk = s.trk := rfl
@[simp] theorem setActions_sched : (setActions k es s).sched = s.sched := rfl
@[simp] theorem setActions_gauge : (setActions k es s).gauge = s.gauge := rfl
@[simp] theorem setActions_eng : (setActions k es s).eng = s.eng := rfl
@[simp] theorem setActions_slots : (setActions k es s).slots = s.slots := rfl
@[simp] theorem setActions_port : (setActions k es s).port = s.port := rfl
@[simp] theorem setActions_trips : (setActions k es s).trips = s.trips := rfl
@[simp] theorem setActions_ilk : (setActions k es s).ilk = { s.ilk with sets := s.ilk.sets.set k es } := rfl
@[simp] theorem setActions_link : (setActions k es s).link = s.link := rfl
@[simp] theorem setActions_pins : (setActions k es s).pins = s.pins := rfl
@[simp] theorem setActions_pending : (setActions k es s).pending = s.pending := rfl
end

/-! ### setTrk -/

section
variable (t : Tracking) (s : State)
@[simp] theorem setTrk_chan : (setTrk t s).chan = s.chan := rfl
@[simp] theorem setTrk_counters : (setTrk t s).counters = s.counters := rfl
@[simp] theorem setTrk_trk : (setTrk t s).trk = t := rfl
@[simp] theorem setTrk_sched : (setTrk t s).sched = s.sched := rfl
@[simp] theorem setTrk_gauge : (setTrk t s).gauge = s.gauge := rfl
@[simp] theorem setTrk_eng : (setTrk t s).eng = s.eng := rfl
@[simp] theorem setTrk_slots : (setTrk t s).slots = s.slots := rfl
@[simp] theorem setTrk_port : (setTrk t s).port = s.port := rfl
@[simp] theorem setTrk_trips : (setTrk t s).trips = s.trips := rfl
@[simp] theorem setTrk_ilk : (setTrk t s).ilk = s.ilk := rfl
@[simp] theorem setTrk_link : (setTrk t s).link = s.link := rfl
@[simp] theorem setTrk_pins : (setTrk t s).pins = s.pins := rfl
@[simp] theorem setTrk_pending : (setTrk t s).pending = s.pending := rfl
end

/-! ### setLink -/

section
variable (l : Link) (s : State)
@[simp] theorem setLink_chan : (setLink l s).chan = s.chan := rfl
@[simp] theorem setLink_counters : (setLink l s).counters = s.counters := rfl
@[simp] theorem setLink_trk : (setLink l s).trk = s.trk := rfl
@[simp] theorem setLink_sched : (setLink l s).sched = s.sched := rfl
@[simp] theorem setLink_gauge : (setLink l s).gauge = s.gauge := rfl
@[simp] theorem setLink_eng : (setLink l s).eng = s.eng := rfl
@[simp] theorem setLink_slots : (setLink l s).slots = s.slots := rfl
@[simp] theorem setLink_port : (setLink l s).port = s.port := rfl
@[simp] theorem setLink_trips : (setLink l s).trips = s.trips := rfl
@[simp] theorem setLink_ilk : (setLink l s).ilk = s.ilk := rfl
@[simp] theorem setLink_link : (setLink l s).link = l := rfl
@[simp] theorem setLink_pins : (setLink l s).pins = s.pins := rfl
@[simp] theorem setLink_pending : (setLink l s).pending = s.pending := rfl
end

/-! ### setSched -/

section
variable (d : SchedStore) (s : State)
@[simp] theorem setSched_chan : (setSched d s).chan = s.chan := rfl
@[simp] theorem setSched_counters : (setSched d s).counters = s.counters := rfl
@[simp] theorem setSched_trk : (setSched d s).trk = s.trk := rfl
@[simp] theorem setSched_sched : (setSched d s).sched = d := rfl
@[simp] theorem setSched_gauge : (setSched d s).gauge = s.gauge := rfl
@[simp] theorem setSched_eng : (setSched d s).eng = s.eng := rfl
@[simp] theorem setSched_slots : (setSched d s).slots = s.slots := rfl
@[simp] theorem setSched_port : (setSched d s).port = s.port := rfl
@[simp] theorem setSched_trips : (setSched d s).trips = s.trips := rfl
@[simp] theorem setSched_ilk : (setSched d s).ilk = s.ilk := rfl
@[simp] theorem setSched_link : (setSched d s).link = s.link := rfl
@[simp] theorem setSched_pins : (setSched d s).pins = s.pins := rfl
@[simp] theorem setSched_pending : (setSched d s).pending = s.pending := rfl
end

/-! ### setSlots -/

section
variable (t : PerTag (Option Stand)) (s : State)
@[simp] theorem setSlots_chan : (setSlots t s).chan = s.chan := rfl
@[simp] theorem setSlots_counters : (setSlots t s).counters = s.counters := rfl
@[simp] theorem setSlots_trk : (setSlots t s).trk = s.trk := rfl
@[simp] theorem setSlots_sched : (setSlots t s).sched = s.sched := rfl
@[simp] theorem setSlots_gauge : (setSlots t s).gauge = s.gauge := rfl
@[simp] theorem setSlots_eng : (setSlots t s).eng = s.eng := rfl
@[simp] theorem setSlots_slots : (setSlots t s).slots = t := rfl
@[simp] theorem setSlots_port : (setSlots t s).port = s.port := rfl
@[simp] theorem setSlots_trips : (setSlots t s).trips = s.trips := rfl
@[simp] theorem setSlots_ilk : (setSlots t s).ilk = s.ilk := rfl
@[simp] theorem setSlots_link : (setSlots t s).link = s.link := rfl
@[simp] theorem setSlots_pins : (setSlots t s).pins = s.pins := rfl
@[simp] theorem setSlots_pending : (setSlots t s).pending = s.pending := rfl
end

/-! ### setLive -/

section
variable (x : Source) (b : Bool) (s : State)
@[simp] theorem setLive_chan : (setLive x b s).chan = s.chan := rfl
@[simp] theorem setLive_counters : (setLive x b s).counters = s.counters := rfl
@[simp] theorem setLive_trk : (setLive x b s).trk = s.trk := rfl
@[simp] theorem setLive_sched : (setLive x b s).sched = s.sched := rfl
@[simp] theorem setLive_gauge : (setLive x b s).gauge = s.gauge := rfl
@[simp] theorem setLive_eng : (setLive x b s).eng = s.eng := rfl
@[simp] theorem setLive_slots : (setLive x b s).slots = s.slots := rfl
@[simp] theorem setLive_port : (setLive x b s).port = s.port := rfl
@[simp] theorem setLive_trips : (setLive x b s).trips = { s.trips with src := s.trips.src.set x { s.trips.src.get x with live := b } } := rfl
@[simp] theorem setLive_ilk : (setLive x b s).ilk = s.ilk := rfl
@[simp] theorem setLive_link : (setLive x b s).link = s.link := rfl
@[simp] theorem setLive_pins : (setLive x b s).pins = s.pins := rfl
@[simp] theorem setLive_pending : (setLive x b s).pending = s.pending := rfl
end

/-! ### Readings -/

theorem blocked_congr {s t : State} (h : s.ilk.sets = t.ilk.sets) (k : Stand) : s.blocked k = t.blocked k := by
  simp [State.blocked, h]

theorem retracting_congr {s t : State} (h : s.ilk.sets = t.ilk.sets) (k : Stand) : s.retracting k = t.retracting k := by
  simp [State.retracting, h]

theorem measured_congr {s t : State} (h : s.chan.recs = t.chan.recs) (c : Channel) : s.measured c = t.measured c := by
  simp [State.measured, State.chanValid, h]

theorem coilAt_congr {s t : State} (h : s.sched.coils = t.sched.coils) (p : Point) : s.coilAt p = t.coilAt p := by
  simp [State.coilAt, h]

theorem coilOf_congr {s t : State} (h : s.sched.coils = t.sched.coils) (key : Nat) : s.coilOf key = t.coilOf key := by
  simp [State.coilOf, h]

theorem eligible_congr {s t : State} (h : s.trips = t.trips) (x : Source) : s.eligible x = t.eligible x := by
  simp [State.eligible, h]

theorem selected_congr {s t : State} (h : s.trips = t.trips) : selected s = selected t := by
  have best : moreUrgent s = moreUrgent t := by
    funext b x
    simp [moreUrgent, h]
  have fits : qualifies s = qualifies t := by
    funext x
    simp [qualifies, h]
  simp [selected, mostUrgent, best, fits, h, eligible_congr h]

/-- R71: what the AGC state of a stand is derived from. -/
theorem agcStateOf_congr {s t : State} {k : Stand} (mode : (s.gauge.stands.get k).mode = (t.gauge.stands.get k).mode)
    (href : (s.gauge.stands.get k).href.isNone = (t.gauge.stands.get k).href.isNone) (recs : s.chan.recs = t.chan.recs)
    (sets : s.ilk.sets.get k = t.ilk.sets.get k) (planned : (s.eng.get k).planned = (t.eng.get k).planned) :
    agcStateOf s k = agcStateOf t k := by
  simp [agcStateOf, State.chanValid, State.blocked, mode, href, recs, sets, planned]

/-- A blocking set is one with a retract-type entry or a hold entry. -/
theorem blocked_of_retracting {s : State} {k : Stand} (h : s.retracting k = true) : s.blocked k = true := by
  simp only [State.retracting, State.blocked, List.any_eq_true] at *
  obtain ⟨e, he, ha⟩ := h
  refine ⟨e, he, ?_⟩
  revert ha
  cases e.action <;> simp [Action.isRetractType, Action.isBlocking]

end Sys2Proof.Machine
end

