-- ==== Sys2Proof/Laws/Link.lean ====
section
/-! SUPPORT. The link controller's operations: what a report or a reply changes, and what a request comes to. -/
namespace Sys2Proof.Machine
open Sys2Proof.Safety

/-! ### Reports and replies -/

theorem report_eq (r : Report) (s : State) : report r s = { s with link := (s.link.offer r).pump } := rfl

theorem addReply_eq (r : Reply) (s : State) :
    addReply r s = { s with link := Link.pump { s.link with replies := s.link.replies ++ [r] } } := rfl

theorem evictOldest_eq_some (pre post : List Report) (q : Report) (trips : ∀ p ∈ pre, p.isTrip = true)
    (hq : q.isTrip = false) : evictOldest (pre ++ q :: post) = some (pre ++ post) := by
  induction pre with
  | nil => simp [evictOldest, hq]
  | cons p rest ih => simp_all [evictOldest]

theorem evictOldest_eq_none {l : List Report} (trips : ∀ p ∈ l, p.isTrip = true) : evictOldest l = none := by
  induction l with
  | nil => rfl
  | cons p rest ih => simp_all [evictOldest]

theorem evictOldest_length {l rest : List Report} (h : evictOldest l = some rest) : rest.length + 1 = l.length := by
  induction l generalizing rest with
  | nil => simp [evictOldest] at h
  | cons p l ih =>
    simp only [evictOldest] at h
    split at h
    · obtain ⟨r, hr, rfl⟩ := Option.map_eq_some_iff.mp h
      simp [ih hr]
    · cases h
      rfl

/-- R163: an offer touches the report queue and the lost mark alone. -/
theorem Link.offer_eq (l : Link) (r : Report) :
    l.offer r = { l with reports := (l.offer r).reports, lost := (l.offer r).lost } := by
  unfold Link.offer
  repeat' split
  all_goals rfl

theorem Link.offer_length (l : Link) (r : Report) (h : l.reports.length ≤ 32) : (l.offer r).reports.length ≤ 32 := by
  unfold Link.offer Config.reportQueueSize
  split
  · simp only [List.length_append, List.length_singleton]
    omega
  · split
    · split
      · rename_i rest hr
        have := evictOldest_length hr
        simp only [List.length_append, List.length_singleton]
        omega
      · exact h
    · exact h

/-- R153: the transmitter touches the two queues' fronts, the lost mark, and its own state. -/
theorem Link.next_eq (l : Link) :
    l.next = { l with
      replies := l.next.replies, reports := l.next.reports, lost := l.next.lost, sending := l.next.sending,
      lastSent := l.next.lastSent, firstChoice := l.next.firstChoice } := by
  unfold Link.next Link.beginReply Link.beginReport
  repeat' split
  all_goals rfl

theorem Link.next_length (l : Link) :
    l.next.reports.length ≤ l.reports.length ∧ l.next.replies.length ≤ l.replies.length := by
  unfold Link.next Link.beginReply Link.beginReport
  repeat' split
  all_goals simp_all

theorem Link.pump_busy {l : Link} (h : l.sending.isSome = true) : l.pump = l := by simp [Link.pump, h]

theorem Link.pump_eq (l : Link) :
    l.pump = { l with
      replies := l.pump.replies, reports := l.pump.reports, lost := l.pump.lost, sending := l.pump.sending,
      lastSent := l.pump.lastSent, firstChoice := l.pump.firstChoice } := by
  unfold Link.pump
  split
  · rfl
  · exact l.next_eq

theorem Link.pump_length (l : Link) :
    l.pump.reports.length ≤ l.reports.length ∧ l.pump.replies.length ≤ l.replies.length := by
  unfold Link.pump
  split
  · exact ⟨Nat.le_refl _, Nat.le_refl _⟩
  · exact l.next_length

section
variable (r : Report) (q : Reply) (s : State)
@[simp] theorem report_chan : (report r s).chan = s.chan := rfl
@[simp] theorem report_counters : (report r s).counters = s.counters := rfl
@[simp] theorem report_trk : (report r s).trk = s.trk := rfl
@[simp] theorem report_sched : (report r s).sched = s.sched := rfl
@[simp] theorem report_gauge : (report r s).gauge = s.gauge := rfl
@[simp] theorem report_eng : (report r s).eng = s.eng := rfl
@[simp] theorem report_slots : (report r s).slots = s.slots := rfl
@[simp] theorem report_port : (report r s).port = s.port := rfl
@[simp] theorem report_trips : (report r s).trips = s.trips := rfl
@[simp] theorem report_ilk : (report r s).ilk = s.ilk := rfl
@[simp] theorem report_pins : (report r s).pins = s.pins := rfl
@[simp] theorem report_pending : (report r s).pending = s.pending := rfl
@[simp] theorem addReply_chan : (addReply q s).chan = s.chan := rfl
@[simp] theorem addReply_counters : (addReply q s).counters = s.counters := rfl
@[simp] theorem addReply_trk : (addReply q s).trk = s.trk := rfl
@[simp] theorem addReply_sched : (addReply q s).sched = s.sched := rfl
@[simp] theorem addReply_gauge : (addReply q s).gauge = s.gauge := rfl
@[simp] theorem addReply_eng : (addReply q s).eng = s.eng := rfl
@[simp] theorem addReply_slots : (addReply q s).slots = s.slots := rfl
@[simp] theorem addReply_port : (addReply q s).port = s.port := rfl
@[simp] theorem addReply_trips : (addReply q s).trips = s.trips := rfl
@[simp] theorem addReply_ilk : (addReply q s).ilk = s.ilk := rfl
@[simp] theorem addReply_pins : (addReply q s).pins = s.pins := rfl
@[simp] theorem addReply_pending : (addReply q s).pending = s.pending := rfl
end

/-! ### Requests -/

/-- R148, R149: a good frame restarts a running supervision timer. -/
theorem heard_eq (s : State) :
    heard s = { s with link := { s.link with supLeft :=
      if s.link.supLeft.isSome ∧ s.link.supTime ≠ 0 then some s.link.supTime else none } } := by
  obtain ⟨chan, counters, trk, sched, gauge, eng, slots, port, trips, ilk, link, pins, pending⟩ := s
  obtain ⟨rx, gap, time, left⟩ := link
  cases left <;> simp [restartSupervision, startSupervision, setLink]

section
variable (s : State)
@[simp] theorem heard_chan : (heard s).chan = s.chan := by rw [heard_eq]
@[simp] theorem heard_counters : (heard s).counters = s.counters := by rw [heard_eq]
@[simp] theorem heard_trk : (heard s).trk = s.trk := by rw [heard_eq]
@[simp] theorem heard_sched : (heard s).sched = s.sched := by rw [heard_eq]
@[simp] theorem heard_gauge : (heard s).gauge = s.gauge := by rw [heard_eq]
@[simp] theorem heard_eng : (heard s).eng = s.eng := by rw [heard_eq]
@[simp] theorem heard_slots : (heard s).slots = s.slots := by rw [heard_eq]
@[simp] theorem heard_port : (heard s).port = s.port := by rw [heard_eq]
@[simp] theorem heard_trips : (heard s).trips = s.trips := by rw [heard_eq]
@[simp] theorem heard_ilk : (heard s).ilk = s.ilk := by rw [heard_eq]
@[simp] theorem heard_pins : (heard s).pins = s.pins := by rw [heard_eq]
@[simp] theorem heard_pending : (heard s).pending = s.pending := by rw [heard_eq]
@[simp] theorem heard_replies : (heard s).link.replies = s.link.replies := by rw [heard_eq]
end

/-- R148, R151, R152: a request that may be answered goes to its owner, and its reply joins the list. -/
theorem request_answered {type tag : Byte} {owner : State → Answer} {s : State} (h : MayAnswer tag s) :
    request type tag owner s =
      (owner (heard s)).followUp
        (addReply { type := type, tag := tag, status := (owner (heard s)).status, content := (owner (heard s)).content }
          (owner (heard s)).state) := by
  obtain ⟨hr, hn, ht⟩ := h
  simp only [request, receiveFrame, hr, Config.replyListSize, heard_replies, Nat.not_le.mpr hn, decode,
    Nat.not_lt.mpr ht]
  simp

/-- R148, R151: a request whose tag is none is answered with RANGE. -/
theorem request_badTag {type tag : Byte} {owner : State → Answer} {s : State} (hr : s.pins.reset = false)
    (hn : s.link.replies.length < 8) (ht : 7 < tag.toNat) :
    request type tag owner s = addReply { type := type, tag := tag, status := .range, content := [] } (heard s) := by
  simp only [request, receiveFrame, hr, Config.replyListSize, heard_replies, Nat.not_le.mpr hn, decode, ht]
  simp [refuse]

/-- R148: a request received with the reply list full is not decoded. -/
theorem request_dropped {type tag : Byte} {owner : State → Answer} {s : State} (hr : s.pins.reset = false)
    (hn : 8 ≤ s.link.replies.length) : request type tag owner s = heard s := by
  simp [request, receiveFrame, hr, Config.replyListSize, hn]

/-- R142: a request is not received while the part is held in reset. -/
theorem request_held {type tag : Byte} {owner : State → Answer} {s : State} (hr : s.pins.reset = true) :
    request type tag owner s = s := by
  simp [request, receiveFrame, hr]

/-- R142: an event is taken when the part is not held. -/
theorem unlessHeld_free {f : State → State} {s : State} (hr : s.pins.reset = false) : unlessHeld f s = f s := by
  simp [unlessHeld, hr]

end Sys2Proof.Machine
end

