-- ==== Sys2Proof/Laws/Frames.lean ====
section
/-! SUPPORT. What each operation leaves unchanged, said once for each: `calm` keeps of a state what no trip, action, move or report
changes, and `still` keeps what no length event or value changes. -/
namespace Sys2Proof.Machine

/-! ### What trips, actions, moves and reports leave -/

/-- A segment record without its OFF_GAUGE mark. -/
def Seg.plain (g : Seg) : Seg := { g with offGauge := false }

/-- A queued record without its OFF_GAUGE mark. -/
def Queued.plain (q : Queued) : Queued := { q with seg := q.seg.plain }

/-- The tracking unit's state without OFF_GAUGE marks. -/
def Tracking.plain (t : Tracking) : Tracking :=
  { t with queues := .ofFn fun k => (t.queues.get k).map Queued.plain, underExit := t.underExit.map Seg.plain }

/-- An engine's reference and settings. -/
def Engine.plain (e : Engine) : Engine := { Engine.reset with ref := e.ref, cfg := e.cfg }

/-- A source's configuration. -/
def SourceRec.plain (r : SourceRec) : SourceRec := { r with st := .quiet, acted := false, rep := false, live := false }

/-- The link controller's state without its queues and transmitter. -/
def Link.plain (l : Link) : Link :=
  { l with
    replies := [], reports := [], lost := false, sending := none, lastSent := .reply, firstChoice := false, attn := false }

/-- What no trip, action, move or report changes: all but OFF_GAUGE marks, AGC states, the engines' moves, slots, the running part
of sources, action sets, the STOP line, and the link's queues. -/
def State.calm (s : State) : State :=
  { s with
    trk := s.trk.plain
    gauge := { s.gauge with stands := .ofFn fun k => { s.gauge.stands.get k with st := .off } }
    eng := .ofFn fun k => (s.eng.get k).plain
    slots := .fill none
    trips := { s.trips with src := .ofFn fun x => (s.trips.src.get x).plain }
    ilk := { s.ilk with sets := .fill [], stop := false }
    link := s.link.plain }

theorem calm_foldl {α : Type} {f : State → α → State} (h : ∀ s a, (f s a).calm = s.calm) (l : List α) (s : State) :
    (l.foldl f s).calm = s.calm := by
  induction l generalizing s with
  | nil => rfl
  | cons a l ih => rw [List.foldl_cons, ih, h]

section
variable {s t : State} (h : t.calm = s.calm)
include h
theorem chan_of_calm : t.chan = s.chan := by
  have e := congrArg State.chan h
  exact e
theorem counters_of_calm : t.counters = s.counters := by
  have e := congrArg State.counters h
  exact e
theorem sched_of_calm : t.sched = s.sched := by
  have e := congrArg State.sched h
  exact e
theorem port_of_calm : t.port = s.port := by
  have e := congrArg State.port h
  exact e
theorem pins_of_calm : t.pins = s.pins := by
  have e := congrArg State.pins h
  exact e
theorem pending_of_calm : t.pending = s.pending := by
  have e := congrArg State.pending h
  exact e
theorem trk_of_calm : t.trk.plain = s.trk.plain := by
  have e := congrArg State.trk h
  exact e
theorem link_of_calm : t.link.plain = s.link.plain := by
  have e := congrArg State.link h
  exact e
theorem ceiling_of_calm : t.trips.ceiling = s.trips.ceiling := by
  have e := congrArg (fun u => u.trips.ceiling) h
  exact e
theorem stack_of_calm : t.trips.stack = s.trips.stack := by
  have e := congrArg (fun u => u.trips.stack) h
  exact e
theorem inputs_of_calm : t.trips.inputs = s.trips.inputs := by
  have e := congrArg (fun u => u.trips.inputs) h
  exact e
theorem gauge_of_calm : t.gauge = { s.gauge with stands := t.gauge.stands } := by
  have e := congrArg (fun u => { u.gauge with stands := t.gauge.stands }) h
  exact e
theorem ilk_of_calm : t.ilk = { s.ilk with sets := t.ilk.sets, stop := t.ilk.stop } := by
  have e := congrArg (fun u => { u.ilk with sets := t.ilk.sets, stop := t.ilk.stop }) h
  exact e
theorem engine_of_calm (k : Stand) : (t.eng.get k).ref = (s.eng.get k).ref ∧ (t.eng.get k).cfg = (s.eng.get k).cfg := by
  have e := congrArg (fun u => u.eng.get k) h
  simpa [State.calm, Engine.plain] using e
theorem agc_of_calm (k : Stand) :
    t.gauge.stands.get k = { s.gauge.stands.get k with st := (t.gauge.stands.get k).st } := by
  have e := congrArg (fun u => { u.gauge.stands.get k with st := (t.gauge.stands.get k).st }) h
  simp only [State.calm, PerStand.get_ofFn] at e
  exact e
theorem source_of_calm (x : Source) : (t.trips.src.get x).plain = (s.trips.src.get x).plain := by
  have e := congrArg (fun u => u.trips.src.get x) h
  simpa [State.calm] using e
end

section
variable (k : Stand) (s : State)

@[simp] theorem calm_setAgcState (st : AgcState) :
    (setAgc k { s.gauge.stands.get k with st := st } s).calm = s.calm := by
  simp only [State.calm, setAgc, State.mk.injEq, Gauge.mk.injEq, and_true, true_and]
  exact PerStand.eq_of_get fun j => by
    simp only [PerStand.get_ofFn, PerStand.get_set]
    split <;> simp_all

theorem calm_setEngine {e : Engine} (h : e.plain = (s.eng.get k).plain) : (setEngine k e s).calm = s.calm := by
  simp only [State.calm, setEngine, State.mk.injEq, and_true, true_and]
  exact PerStand.eq_of_get fun j => by
    simp only [PerStand.get_ofFn, PerStand.get_set]
    split <;> simp_all

theorem calm_setSource (x : Source) {r : SourceRec} (h : r.plain = (s.trips.src.get x).plain) :
    (setSource x r s).calm = s.calm := by
  simp only [State.calm, setSource, State.mk.injEq, Trips.mk.injEq, and_true, true_and]
  exact PerSource.eq_of_get fun y => by
    simp only [PerSource.get_ofFn, PerSource.get_set]
    split <;> simp_all

@[simp] theorem calm_setLive (x : Source) (b : Bool) : (setLive x b s).calm = s.calm := calm_setSource s x rfl

@[simp] theorem calm_setSlots (u : PerTag (Option Stand)) : (setSlots u s).calm = s.calm := rfl

@[simp] theorem calm_setActions (es : List Entry) : (setActions k es s).calm = s.calm := rfl

theorem calm_setLink {l : Link} (h : l.plain = s.link.plain) : (setLink l s).calm = s.calm := by
  simp [State.calm, setLink, h]

@[simp] theorem plain_offer (l : Link) (r : Report) : (l.offer r).plain = l.plain := by rw [Link.offer_eq]; rfl
@[simp] theorem plain_next (l : Link) : l.next.plain = l.plain := by rw [Link.next_eq]; rfl
@[simp] theorem plain_pump (l : Link) : l.pump.plain = l.plain := by rw [Link.pump_eq]; rfl

@[simp] theorem calm_report (r : Report) : (report r s).calm = s.calm := calm_setLink s (by simp)

@[simp] theorem calm_addReply (r : Reply) : (addReply r s).calm = s.calm := calm_setLink s (by rw [plain_pump]; rfl)

@[simp] theorem calm_evalAttn : (evalAttn s).calm = s.calm := calm_setLink s rfl

@[simp] theorem calm_deriveAgc : (deriveAgc k s).calm = s.calm := calm_setAgcState k s _

@[simp] theorem calm_freeSlot (tag : Option Tag) : (freeSlot tag s).calm = s.calm := by cases tag <;> rfl

@[simp] theorem calm_reportMove (m : Move) (st : MoveStatus) : (reportMove k m st s).calm = s.calm := calm_report s _

@[simp] theorem calm_clearPosErr : (clearPosErr k s).calm = s.calm := by
  simp only [clearPosErr, calm_setLive]
  exact calm_setEngine k s rfl

@[simp] theorem calm_startMove (m : Move) : (startMove k m s).calm = s.calm := by
  unfold startMove
  dsimp only
  split <;> exact calm_setEngine k s rfl

@[simp] theorem calm_checkPending : (checkPending k s).calm = s.calm := by
  unfold checkPending
  dsimp only
  split
  · rfl
  · split
    · rw [calm_startMove]
      exact calm_setEngine k s rfl
    · rfl

@[simp] theorem calm_dropActive : (dropActive k s).calm = s.calm := by
  unfold dropActive
  rw [calm_clearPosErr]
  exact calm_setEngine k s rfl

@[simp] theorem calm_finishMove (m : Move) (st : MoveStatus) : (finishMove k m st s).calm = s.calm := by
  unfold finishMove
  dsimp only
  rw [calm_checkPending, calm_clearPosErr]
  split
  all_goals
    simp only [calm_reportMove, calm_freeSlot]
    exact calm_setEngine k s rfl

@[simp] theorem calm_makeWay : (makeWay k s).calm = s.calm := by
  unfold makeWay
  dsimp only
  split
  · rw [calm_dropActive]
    exact calm_setEngine k s rfl
  · exact calm_setEngine k s rfl

@[simp] theorem calm_takeMove (m : Move) : (takeMove k m s).calm = s.calm := by
  unfold takeMove
  dsimp only
  rw [calm_deriveAgc]
  split
  · simp
  · rw [calm_checkPending, calm_setEngine, calm_makeWay]
    rfl

@[simp] theorem calm_issueSetup (gap : Int) : (issueSetup k gap s).calm = s.calm := by
  unfold issueSetup
  dsimp only
  repeat' split
  all_goals simp

@[simp] theorem calm_takeFeedback (x : Int) : (takeFeedback k x s).calm = s.calm := by
  unfold takeFeedback
  dsimp only
  repeat' split
  all_goals simp

@[simp] theorem calm_holdActive : (holdActive k s).calm = s.calm := by
  unfold holdActive
  dsimp only
  repeat' split
  all_goals first | rfl | exact calm_setEngine k s rfl

@[simp] theorem calm_resumeActive : (resumeActive k s).calm = s.calm := by
  unfold resumeActive
  dsimp only
  repeat' split
  all_goals first | rfl | exact calm_setEngine k s rfl

@[simp] theorem calm_flushPending (l : List Move) : (flushPending k l s).calm = s.calm := by
  induction l generalizing s with
  | nil => rfl
  | cons m rest ih =>
    simp only [flushPending, ih, calm_reportMove, calm_freeSlot]
    exact calm_setEngine k s rfl

@[simp] theorem calm_abortActive : (abortActive k s).calm = s.calm := by
  unfold abortActive
  repeat' split
  all_goals simp

@[simp] theorem calm_startRetract : (startRetract k s).calm = s.calm := by
  unfold startRetract
  dsimp only
  split <;> simp

@[simp] theorem calm_retract : (retract k s).calm = s.calm := by simp [retract]

@[simp] theorem calm_settleTimeout : (settleTimeout k s).calm = s.calm := by
  unfold settleTimeout
  dsimp only
  split <;> simp

@[simp] theorem calm_settleTest (v : Int) : (settleTest k v s).calm = s.calm := by
  unfold settleTest
  dsimp only
  repeat' split
  all_goals simp

theorem Tracking.plain_mapSeg (t : Tracking) (id : Nat) {f : Seg → Seg} (h : ∀ g, (f g).plain = g.plain) :
    (t.mapSeg id f).plain = t.plain := by
  have seg (g : Seg) : (if g.id = id then f g else g).plain = g.plain := by split <;> simp [h]
  simp only [Tracking.plain, Tracking.mapSeg, Tracking.mk.injEq, true_and, and_true, PerSpan.get_ofFn]
  constructor
  · exact PerSpan.eq_of_get fun j => by simp [Function.comp_def, Queued.plain, seg]
  · simp [Function.comp_def, seg]

@[simp] theorem calm_markOffGauge (id : Nat) : (markOffGauge id s).calm = s.calm := by
  simp only [State.calm, markOffGauge, setTrk]
  rw [Tracking.plain_mapSeg]
  intro g
  rfl

@[simp] theorem calm_markUnderStand : (markUnderStand k s).calm = s.calm := by
  unfold markUnderStand
  split <;> simp

@[simp] theorem calm_applyAt (x : Source) (a : Action) : (applyAt x a s k).calm = s.calm := by
  unfold applyAt
  dsimp only
  repeat' split
  all_goals simp

@[simp] theorem calm_applyAction (x : Source) (a : Action) : (applyAction x a s).calm = s.calm := by
  unfold applyAction
  dsimp only
  rw [calm_foldl fun s k => calm_applyAt k s x a]
  split <;> rfl

@[simp] theorem calm_releaseAt (x : Source) : (releaseAt x s k).calm = s.calm := by
  unfold releaseAt
  dsimp only
  split <;> simp

@[simp] theorem calm_releaseAction (x : Source) : (releaseAction x s).calm = s.calm :=
  calm_foldl (fun s k => calm_releaseAt k s x) _ _

@[simp] theorem calm_act (x : Source) : (act x s).calm = s.calm := by
  simp only [act, calm_applyAction]
  exact calm_setSource s x rfl

@[simp] theorem calm_reportTrip (x : Source) : (reportTrip x s).calm = s.calm := calm_report s _

@[simp] theorem calm_latch (x : Source) : (latch x s).calm = s.calm := by
  unfold latch
  dsimp only
  rw [calm_evalAttn, calm_reportTrip]
  split
  · rw [calm_act]
    exact calm_setSource s x rfl
  · exact calm_setSource s x rfl

@[simp] theorem calm_edge (x : Source) : (edge x s).calm = s.calm := by
  unfold edge
  dsimp only
  repeat' split
  all_goals first | rfl | exact calm_latch s x | exact calm_setSource s x rfl

@[simp] theorem calm_condition (x : Source) (b : Bool) : (condition x b s).calm = s.calm := by
  unfold condition
  repeat' split
  all_goals simp

@[simp] theorem calm_latchCheck (x : Source) : (latchCheck s x).calm = s.calm := by
  unfold latchCheck
  dsimp only
  split <;> simp

@[simp] theorem calm_derivedConditions : (derivedConditions s).calm = s.calm := by simp [derivedConditions]

@[simp] theorem calm_actIfEligible (x : Source) : (actIfEligible s x).calm = s.calm := by
  unfold actIfEligible
  dsimp only
  split <;> simp

@[simp] theorem calm_countPosErr (v : Int) : (countPosErr k v s).calm = s.calm := by
  unfold countPosErr
  dsimp only
  split
  · rfl
  · rw [calm_condition]
    exact calm_setEngine k s rfl

@[simp] theorem calm_positionValue (v : Int) : (positionValue k v s).calm = s.calm := by simp [positionValue]
end

/-! ### What length events and values leave -/

/-- What no length event, bite, value or arrival changes: of `calm`, all but the tracking unit, the schedule store, gauge control and the
trip controller's inputs. -/
def State.still (s : State) : State :=
  { s.calm with
    trk := .reset, sched := .reset, gauge := .reset, trips := { s.calm.trips with inputs := Trips.reset.inputs } }

theorem still_of_calm {s t : State} (h : t.calm = s.calm) : t.still = s.still := by rw [State.still, State.still, h]

theorem still_foldl {α : Type} {f : State → α → State} (h : ∀ s a, (f s a).still = s.still) (l : List α) (s : State) :
    (l.foldl f s).still = s.still := by
  induction l generalizing s with
  | nil => rfl
  | cons a l ih => rw [List.foldl_cons, ih, h]

section
variable {s t : State} (h : t.still = s.still)
include h
theorem chan_of_still : t.chan = s.chan := by
  have e := congrArg State.chan h
  exact e
theorem counters_of_still : t.counters = s.counters := by
  have e := congrArg State.counters h
  exact e
theorem port_of_still : t.port = s.port := by
  have e := congrArg State.port h
  exact e
theorem pins_of_still : t.pins = s.pins := by
  have e := congrArg State.pins h
  exact e
theorem pending_of_still : t.pending = s.pending := by
  have e := congrArg State.pending h
  exact e
theorem ilk_of_still : t.ilk = { s.ilk with sets := t.ilk.sets, stop := t.ilk.stop } := by
  have e := congrArg (fun u => { u.ilk with sets := t.ilk.sets, stop := t.ilk.stop }) h
  exact e
theorem link_of_still : t.link.plain = s.link.plain := by
  have e := congrArg State.link h
  exact e
theorem ceiling_of_still : t.trips.ceiling = s.trips.ceiling := by
  have e := congrArg (fun u => u.trips.ceiling) h
  exact e
theorem stack_of_still : t.trips.stack = s.trips.stack := by
  have e := congrArg (fun u => u.trips.stack) h
  exact e
theorem engine_of_still (k : Stand) : (t.eng.get k).ref = (s.eng.get k).ref ∧ (t.eng.get k).cfg = (s.eng.get k).cfg := by
  have e := congrArg (fun u => u.eng.get k) h
  simpa [State.still, State.calm, Engine.plain] using e
end

section
variable (s : State)

@[simp] theorem still_setTrk (t : Tracking) : (setTrk t s).still = s.still := rfl
@[simp] theorem still_setSched (d : SchedStore) : (setSched d s).still = s.still := rfl
@[simp] theorem still_setAgc (k : Stand) (g : AgcStand) : (setAgc k g s).still = s.still := rfl
@[simp] theorem still_setGauge (g : Gauge) : ({ s with gauge := g } : State).still = s.still := rfl
@[simp] theorem still_setInputs (i : TripInputs) :
    ({ s with trips := { s.trips with inputs := i } } : State).still = s.still := rfl
@[simp] theorem still_mapCoil (key : Nat) (f : Coil → Coil) : (mapCoil key f s).still = s.still := rfl
@[simp] theorem still_setHeadProgress (key : Nat) (p : Point) : (setHeadProgress key p s).still = s.still := rfl
@[simp] theorem still_setTailProgress (key : Nat) (p : Point) : (setTailProgress key p s).still = s.still := rfl
@[simp] theorem still_accumulate (p : Point) (x : Int) : (accumulate p x s).still = s.still := rfl
@[simp] theorem still_markOffGauge (id : Nat) : (markOffGauge id s).still = s.still := rfl
@[simp] theorem still_deriveAgc (k : Stand) : (deriveAgc k s).still = s.still := rfl
@[simp] theorem still_edge (x : Source) : (edge x s).still = s.still := still_of_calm (calm_edge s x)
@[simp] theorem still_report (r : Report) : (report r s).still = s.still := still_of_calm (calm_report s r)
@[simp] theorem still_condition (x : Source) (b : Bool) : (condition x b s).still = s.still :=
  still_of_calm (calm_condition s x b)

@[simp] theorem still_tripChannel (c : Channel) (st : ChanState) : (tripChannel c st s).still = s.still := by
  unfold tripChannel
  rw [still_of_calm (calm_derivedConditions _), still_setInputs]

@[simp] theorem still_tripExitKind (kind : Option Kind) : (tripExitKind kind s).still = s.still := by
  unfold tripExitKind
  rw [still_of_calm (calm_derivedConditions _), still_setInputs]

@[simp] theorem still_tripStrip (b : Bool) : (tripStrip b s).still = s.still := by
  unfold tripStrip
  rw [still_of_calm (calm_derivedConditions _), still_setInputs]

/-! Gauge control. -/

@[simp] theorem still_takeError (k : Stand) (e : Int) : (takeError k e s).still = s.still := by
  unfold takeError
  split <;> rfl

@[simp] theorem still_correct (k : Stand) (e position : Int) : (correct k e position s).still = s.still := by
  unfold correct
  dsimp only
  rw [still_of_calm (calm_takeFeedback k _ _), still_setAgc]

@[simp] theorem still_forceValue (k : Stand) (force : Int) : (forceValue k force s).still = s.still := by
  unfold forceValue
  dsimp only
  repeat' split
  all_goals simp

@[simp] theorem still_clearReference (k : Stand) : (clearReference k s).still = s.still := by
  unfold clearReference
  dsimp only
  split <;> rfl

@[simp] theorem still_arrivalAtGauge (k : Stand) (g : Seg) : (arrivalAtGauge k g s).still = s.still := by
  unfold arrivalAtGauge headAtGauge bodyAtGauge tailAtGauge
  dsimp only
  repeat' split
  all_goals simp

@[simp] theorem still_monitor (done : Seg) : (monitor done s).still = s.still := by
  unfold monitor
  dsimp only
  repeat' split
  all_goals simp

/-! Coils and their setups. -/

@[simp] theorem still_admitCoil : (admitCoil s).still = s.still := rfl

@[simp] theorem still_setupAt (key : Nat) (sch : Schedule) (k : Stand) : (setupAt key sch s k).still = s.still := by
  unfold setupAt
  rw [still_of_calm (calm_issueSetup k _ _), still_mapCoil]

@[simp] theorem still_setupsAtBirth (key : Nat) : (setupsAtBirth key s).still = s.still := by
  unfold setupsAtBirth
  dsimp only
  split
  · rfl
  · exact still_foldl (fun s k => still_setupAt s key _ k) _ _

@[simp] theorem still_setupAtTail (k : Stand) (key : Nat) : (setupAtTail k key s).still = s.still := by
  unfold setupAtTail
  repeat' split
  all_goals simp

/-! Births, arrivals and length events. -/

@[simp] theorem still_birth (kind : Kind) : (birth kind s).still = s.still := by
  unfold birth
  dsimp only
  repeat' split
  all_goals simp

@[simp] theorem still_stripRises : (stripRises s).still = s.still := by
  unfold stripRises
  dsimp only
  repeat' split
  all_goals simp

@[simp] theorem still_stripFalls : (stripFalls s).still = s.still := by
  unfold stripFalls
  dsimp only
  repeat' split
  all_goals simp

@[simp] theorem still_entryLength (d : Nat) : (entryLength d s).still = s.still := by
  unfold entryLength
  dsimp only
  repeat' split
  all_goals simp

@[simp] theorem still_startWatches (k : Stand) (kind : Kind) : (startWatches k kind s).still = s.still := by
  unfold startWatches
  repeat' split
  all_goals simp

@[simp] theorem still_markArrival (k : Stand) (g : Seg) : (markArrival k g s).still = s.still := by
  unfold markArrival
  cases g.kind <;> rfl

@[simp] theorem still_arriveAtStand (k : Stand) (g : Seg) (past : Int) (byLength : Bool) :
    (arriveAtStand k g past byLength s).still = s.still := by
  unfold arriveAtStand
  dsimp only
  repeat' split
  all_goals simp

@[simp] theorem still_completeAtExit : (completeAtExit s).still = s.still := by
  unfold completeAtExit
  dsimp only
  repeat' split
  all_goals simp

@[simp] theorem still_offerMonitor (done : Option Seg) : (offerMonitor done s).still = s.still := by
  unfold offerMonitor
  split <;> simp

@[simp] theorem still_endCoil (key : Nat) : (endCoil key s).still = s.still := by
  unfold endCoil
  dsimp only
  split <;> simp

@[simp] theorem still_arriveAtExit (g : Seg) : (arriveAtExit g s).still = s.still := by
  unfold arriveAtExit
  dsimp only
  split <;> simp

@[simp] theorem still_arrive (k : Span) (g : Seg) (past : Int) (byLength : Bool) :
    (arrive k g past byLength s).still = s.still := by
  unfold arrive
  split <;> simp

@[simp] theorem still_popFront (k : Span) : (popFront k s).still = s.still := rfl

@[simp] theorem still_arriveReached (k : Span) (n : Nat) : (arriveReached k n s).still = s.still := by
  induction n generalizing s with
  | zero => rfl
  | succ n ih =>
    unfold arriveReached
    repeat' split
    all_goals simp [ih]

@[simp] theorem still_forceArrivals (k : Span) (n : Nat) : (forceArrivals k n s).still = s.still := by
  induction n generalizing s with
  | zero => rfl
  | succ n ih =>
    unfold forceArrivals
    split
    all_goals simp [ih]

@[simp] theorem still_headWatchRunsOut (k : Stand) : (headWatchRunsOut k s).still = s.still := by simp [headWatchRunsOut]
@[simp] theorem still_tailWatchRunsOut (k : Stand) : (tailWatchRunsOut k s).still = s.still := by simp [tailWatchRunsOut]

@[simp] theorem still_reduceHeadWatch (k : Stand) (d : Nat) : (reduceHeadWatch k d s).still = s.still := by
  unfold reduceHeadWatch
  repeat' split
  all_goals simp

@[simp] theorem still_reduceTailWatch (k : Stand) (d : Nat) : (reduceTailWatch k d s).still = s.still := by
  unfold reduceTailWatch
  repeat' split
  all_goals simp

@[simp] theorem still_reduceDistances (k : Span) (d : Nat) : (reduceDistances k d s).still = s.still := rfl

@[simp] theorem still_lengthEvent (k : Span) (d : Nat) : (lengthEvent k d s).still = s.still := by
  unfold lengthEvent
  dsimp only
  repeat' split
  all_goals simp

@[simp] theorem still_forceOrLose (k : Stand) (p : Seg → Bool) (w : Nat) : (forceOrLose k p w s).still = s.still := by
  unfold forceOrLose
  repeat' split
  all_goals simp

@[simp] theorem still_biteInAt (k : Stand) : (biteInAt k s).still = s.still := by
  unfold biteInAt
  repeat' split
  all_goals simp

@[simp] theorem still_biteOutAt (k : Stand) : (biteOutAt k s).still = s.still := by
  unfold biteOutAt
  dsimp only
  split <;> simp

/-! What a channel hands on. -/

@[simp] theorem still_handState (c : Channel) : (handState c s).still = s.still := by
  unfold handState
  dsimp only
  split <;> simp

@[simp] theorem still_handBite (k : Stand) (was : Bool) : (handBite k was s).still = s.still := by
  unfold handBite
  repeat' split
  all_goals simp

@[simp] theorem still_entryValue (v : Int) : (entryValue v s).still = s.still := by
  unfold entryValue
  repeat' split
  all_goals simp

@[simp] theorem still_exitValue (v : Int) : (exitValue v s).still = s.still := by
  unfold exitValue
  repeat' split
  all_goals simp

@[simp] theorem still_handValue (c : Channel) (r : ChannelRec) : (handValue c r s).still = s.still := by
  unfold handValue
  split
  all_goals first | simp | exact still_of_calm (calm_positionValue _ s _)

@[simp] theorem still_handAccepted (c : Channel) (was : Bool) (r : ChannelRec) : (handAccepted c was r s).still = s.still := by
  unfold handAccepted
  dsimp only
  split <;> simp
end

end Sys2Proof.Machine
end

