-- ==== Sys2Proof/Laws/Channels.lean ====
section
/-! SUPPORT. What a sample does to the channel unit. -/
namespace Sys2Proof.Machine

@[simp] theorem compareOf_recs (c : Channel) (r : ChannelRec) (s : State) :
    (compareOf c r s).chan.recs = s.chan.recs := by
  unfold compareOf evalComparators
  split <;> rfl

@[simp] theorem compareOf_eng (c : Channel) (r : ChannelRec) (s : State) : (compareOf c r s).eng = s.eng := by
  unfold compareOf evalComparators
  split <;> rfl

theorem compareOf_congr {s t : State} (chan : s.chan = t.chan) (eng : s.eng = t.eng) (c : Channel) (r : ChannelRec) :
    (compareOf c r s).chan = (compareOf c r t).chan := by
  unfold compareOf evalComparators
  split <;> simp [chan, eng]

@[simp] theorem reportIf_chan (r : Option Report) (s : State) : (reportIf r s).chan = s.chan := by cases r <;> rfl
@[simp] theorem reportIf_eng (r : Option Report) (s : State) : (reportIf r s).eng = s.eng := by cases r <;> rfl

/-- R2 to R14: a sample's effect on the channel unit is its own channel's record and, where that is VALID after a sample with the
converter-valid flag, its stand's comparators. -/
theorem takeSample_chan (c : Channel) (raw : Word) (valid : Bool) (s : State) :
    (takeSample c raw valid s).chan =
      let new := (s.chan.recs.get c).sampled raw valid
      if valid && new.st == .valid then (compareOf c new (setChannel c new s)).chan else (setChannel c new s).chan := by
  unfold takeSample
  dsimp only
  split
  · rw [chan_of_still (still_handAccepted _ _ _ _)]
    split
    · exact compareOf_congr (by simp) (by simp) _ _
    · rw [chan_of_still (still_handState _ _)]
      exact compareOf_congr (by simp) (by simp) _ _
  · split
    · simp
    · rw [chan_of_still (still_handState _ _)]
      simp

theorem takeSample_recs (c : Channel) (raw : Word) (valid : Bool) (s : State) :
    (takeSample c raw valid s).chan.recs = s.chan.recs.set c ((s.chan.recs.get c).sampled raw valid) := by
  rw [takeSample_chan]
  dsimp only
  split
  · simp
  · rfl

end Sys2Proof.Machine
end

