-- ==== Sys2Proof/Laws/Engines.lean ====
section
/-! SUPPORT. The move engines' operations: what starting, taking and finishing a move can do. -/
namespace Sys2Proof.Machine
open Sys2Proof.Safety

/-- R89: the count of updates is the fewest whose steps cover the distance. -/
theorem updatesFor_least (d step : Nat) (h : 0 < step) :
    d ≤ updatesFor d step * step ∧ (updatesFor d step = 0 ∨ (updatesFor d step - 1) * step < d) := by
  unfold updatesFor
  have sum := Nat.div_add_mod (d + (step - 1)) step
  have small := Nat.mod_lt (d + (step - 1)) h
  generalize (d + (step - 1)) / step = n at *
  rw [Nat.mul_comm] at sum
  refine ⟨by omega, ?_⟩
  cases n with
  | zero => exact .inl rfl
  | succ n =>
    rw [Nat.add_mul] at sum
    exact .inr (by simp only [Nat.add_sub_cancel]; omega)

theorem startMove_started (k : Stand) (m : Move) (s : State) (h : 0 < m.step) :
    Started (s.eng.get k) m ((startMove k m s).eng.get k) := by
  obtain ⟨covers, least⟩ := updatesFor_least (m.target - (s.eng.get k).ref).natAbs m.step h
  refine ⟨_, covers, least, ?_⟩
  unfold startMove
  dsimp only
  split <;> simp_all

/-- Starting a move touches the stand's engine alone. -/
theorem startMove_eq (k : Stand) (m : Move) (s : State) :
    startMove k m s = setEngine k ((startMove k m s).eng.get k) s := by
  unfold startMove
  dsimp only
  split <;> simp [setEngine]

theorem startMove_kept (k : Stand) (m : Move) (s : State) :
    (startMove k m s).eng.get k =
      { s.eng.get k with
        act := ((startMove k m s).eng.get k).act, settleLeft := ((startMove k m s).eng.get k).settleLeft } := by
  unfold startMove
  dsimp only
  split <;> simp

theorem startMove_origin (k : Stand) (m : Move) (s : State) (o : Origin) :
    ((startMove k m s).eng.get k).act.isOf o = (m.origin == o) := by
  unfold startMove
  dsimp only
  split <;> simp [Activity.isOf, Activity.active?]

/-- Checking the pending queue touches the stand's engine alone. -/
theorem checkPending_eq (k : Stand) (s : State) :
    checkPending k s = setEngine k ((checkPending k s).eng.get k) s := by
  unfold checkPending
  dsimp only
  split
  · simp [setEngine]
  · split
    · rw [startMove_eq]
      simp [setEngine]
    · simp [setEngine]

theorem checkPending_blocked {k : Stand} {s : State} (h : s.blocked k = true) : checkPending k s = s := by
  unfold checkPending
  dsimp only
  split <;> simp [h]

theorem checkPending_empty {k : Stand} {s : State} (h : (s.eng.get k).pending = []) : checkPending k s = s := by
  simp [checkPending, h]

theorem checkPending_moving {k : Stand} {s : State} (h : (s.eng.get k).act.isIdle = false) : checkPending k s = s := by
  unfold checkPending
  dsimp only
  split <;> simp [h]

theorem Activity.isIdle_iff (act : Activity) : act.isIdle = true ↔ act = .idle := by cases act <;> simp [Activity.isIdle]

theorem freeSlot_eq (tag : Option Tag) (s : State) :
    freeSlot tag s = { s with slots :=
      match tag with
      | some t => s.slots.set t none
      | none => s.slots } := by
  cases tag <;> rfl

/-- A report of a move when the transmitter is busy and the queue has room. -/
theorem reportMove_queued {k : Stand} {m : Move} {st : MoveStatus} {s : State} (busy : s.link.sending.isSome = true)
    (room : s.link.reports.length < 32) :
    reportMove k m st s = { s with link := { s.link with
      reports := s.link.reports ++
        [.moveDone k m.tag m.origin st m.clamped (s.eng.get k).ref (s.measured (.position k))] } } := by
  unfold reportMove report Link.offer Config.reportQueueSize
  rw [if_pos room, Link.pump_busy (by exact busy)]
  rfl

theorem setRef_eq (k : Stand) (v : Int) (s : State) :
    setRef k v s = { s with
      eng := s.eng.set k { s.eng.get k with ref := v }
      port := if v = (s.eng.get k).ref then s.port
        else s.port.set k { last := some v, sends := (s.port.get k).sends + 1 } } := by
  unfold setRef
  dsimp only
  split
  · rename_i h
    subst h
    have same : s.eng.set k (s.eng.get k) = s.eng := PerStand.set_get _ _
    exact (congrArg (fun e => ({ s with eng := e } : State)) same).symm
  · rfl

/-- R89, log 3: RAMP_DONE is the update of a ramp that has one update left. -/
theorem landRamp_last {k : Stand} {s : State} {a : Active} (h : (s.eng.get k).act = .ramping a) (last : a.remaining ≤ 1) :
    landRamp k s = update k s := by
  simp only [landRamp, h, if_pos last]

/-- Log 3: with more updates left RAMP_DONE does nothing. -/
theorem landRamp_early {k : Stand} {s : State} {a : Active} (h : (s.eng.get k).act = .ramping a) (more : 1 < a.remaining) :
    landRamp k s = s := by
  simp only [landRamp, h, if_neg (Nat.not_le.mpr more)]

/-- R89, log 3: neither an update nor RAMP_DONE changes an engine that does not ramp. -/
theorem update_and_landRamp_still {k : Stand} {s : State} (h : ∀ a, (s.eng.get k).act ≠ .ramping a) :
    update k s = s ∧ landRamp k s = s := by
  unfold update landRamp
  cases act : (s.eng.get k).act with
  | ramping a => exact absurd act (h a)
  | idle | settling _ | held _ _ => simp only [act, and_self]

/-- R101: ending the pending moves empties the stand's queue and leaves the rest of its engine, and the interlocks, alone. -/
theorem flushPending_engine (k : Stand) : ∀ (l : List Move) (s : State), (s.eng.get k).pending = l →
    (flushPending k l s).eng.get k = { s.eng.get k with pending := [] } ∧ (flushPending k l s).ilk = s.ilk := by
  intro l
  induction l with
  | nil => intro s h; refine ⟨?_, rfl⟩; unfold flushPending; rw [← h]
  | cons m l ih =>
    intro s h
    unfold flushPending
    have engine : (reportMove k m .abortedTrip (freeSlot m.tag (setEngine k { s.eng.get k with pending := l } s))).eng.get k =
        { s.eng.get k with pending := l } := by
      cases tag : m.tag <;> simp [reportMove, freeSlot, tag, setSlots]
    have interlocks : (reportMove k m .abortedTrip (freeSlot m.tag (setEngine k { s.eng.get k with pending := l } s))).ilk =
        s.ilk := by
      cases tag : m.tag <;> simp [reportMove, freeSlot, tag, setSlots]
    obtain ⟨h1, h2⟩ := ih _ (by rw [engine])
    rw [h1, h2, engine]
    exact ⟨rfl, interlocks⟩

end Sys2Proof.Machine
end

