-- ==== Sys2Proof/Laws/Strip.lean ====
section
/-! SUPPORT. What closing an accumulator and a birth leave of the tracking unit, and the prescaler of a value sent. -/
namespace Sys2Proof.Machine

/-! ### Closing (R30, R41) -/

/-- R41: closing an accumulator writes deviations and clears the accumulator, and leaves the rest of the tracking unit. -/
theorem Tracking.closeAcc_eq (t : Tracking) (p : Point) :
    t.closeAcc p = { t with
      queues := (t.closeAcc p).queues
      underExit := (t.closeAcc p).underExit
      acc := t.acc.set p { sum := 0, count := 0 } } := by
  unfold Tracking.closeAcc
  split <;> rfl

/-- R30, steps 1 and 2: closing at a birth writes records and clears point 0's accumulator, and leaves the rest. -/
theorem closeAtEntry_eq (t : Tracking) :
    closeAtEntry t = { t with
      queues := (closeAtEntry t).queues
      underExit := (closeAtEntry t).underExit
      acc := t.acc.set .entry { sum := 0, count := 0 } } := by
  unfold closeAtEntry
  split
  · split
    · rfl
    · rw [Tracking.closeAcc_eq]
      rfl
  · rfl

section
variable (t : Tracking)
@[simp] theorem closeAtEntry_nextId : (closeAtEntry t).nextId = t.nextId := by rw [closeAtEntry_eq]
@[simp] theorem closeAtEntry_spanLen : (closeAtEntry t).spanLen = t.spanLen := by rw [closeAtEntry_eq]
@[simp] theorem closeAtEntry_poolFull : (closeAtEntry t).poolFull = t.poolFull := by rw [closeAtEntry_eq]
@[simp] theorem closeAtEntry_entry : (closeAtEntry t).entry = t.entry := by rw [closeAtEntry_eq]
@[simp] theorem closeAtEntry_underStand : (closeAtEntry t).underStand = t.underStand := by rw [closeAtEntry_eq]
end

/-! ### Values brought to a power of two (R15, R47) -/

/-- R47: a prescaler is the largest power of two up to 128 not above the value sent, or 1. -/
theorem prescalerFor_eq (x : Nat) :
    prescalerFor x =
      if 128 ≤ x then 128 else if 64 ≤ x then 64 else if 32 ≤ x then 32 else if 16 ≤ x then 16 else if 8 ≤ x then 8
      else if 4 ≤ x then 4 else if 2 ≤ x then 2 else 1 := by
  rfl

/-- R15: a filter length is the largest power of two up to 16 not above the value sent, or 1. -/
theorem filterLength_eq (x : Nat) :
    filterLength x = if 16 ≤ x then 16 else if 8 ≤ x then 8 else if 4 ≤ x then 4 else if 2 ≤ x then 2 else 1 := by
  rfl

end Sys2Proof.Machine
end

