-- ==== Sys2Proof/Tests/Slice0.lean ====
section
/-! SUPPORT. Tests: the ill-formed commands, the spec's worked figures, and a state that meets the hypotheses of each statement. -/
namespace Sys2Proof.Tests
open Sys2Proof.Machine Sys2Proof.Safety

/-! ### Small states -/

/-- What a command leaves. -/
def after (i : Instr) (s : State) : State :=
  match exec i s with
  | .next t => t
  | .fault _ | .refused _ => s

/-- The status and content of the newest reply. -/
def answer (s : State) : Option (Status × List Byte) := s.link.replies.getLast?.map fun r => (r.status, r.content)

/-- The newest report. -/
def newest (s : State) : Option Report := s.link.reports.getLast?

/-- After reset, with the lock open and the STOP line released. -/
def opened : State := { State.reset with ilk := { State.reset.ilk with lockOpen := true, stop := false } }

/-- Held in reset. -/
def held : State := { State.reset with pins := { State.reset.pins with reset := true } }

/-- A stand-2 engine at rest at 8,000 (chapter 5, "a LINK move from start to done"). -/
def atRest : State := setEngine .s2 { Engine.reset with ref := 8000, retracted := false } opened

def linkTo (target : Int) (step : Nat) (tag : Tag) : Move :=
  { origin := .link, target := target, step := step, tag := some tag, clamped := false }

def feedbackTo (target : Int) : Move :=
  { origin := .feedback, target := target, step := 5, tag := none, clamped := false }

/-- The engine of a state with a move active. -/
def moving (act : Activity) : State :=
  setEngine .s2 { Engine.reset with act := act, retracted := false, settleLeft := some 9 } opened

/-- The engine of a state with moves waiting behind an active one. -/
def waiting (moves : List Move) : State :=
  setEngine .s2 { Engine.reset with
    act := .ramping { move := { linkTo 9000 10 .t1 with tag := none, origin := .setup }, remaining := 3 }
    retracted := false, pending := moves } opened

/-- Force channel of stand 3 as R4's example sets it, in a given state. -/
def forceChannel (st : ChanState) : ChannelRec :=
  { ChannelRec.reset (-2000) 60000 with enabled := true, zero := 2000, span := 50000, st := st, staleLeft := some 20 }

def measuring (st : ChanState) : State := setChannel (.force .s3) (forceChannel st) State.reset

/-- A source with the given state. -/
def withSource (x : Source) (f : SourceRec → SourceRec) (s : State) : State := setSource x (f (s.trips.src.get x)) s

/-- STRIP_LOST in service. -/
def serving : State :=
  { withSource .stripLost (fun r => { r with st := .inService, acted := true }) opened with
    trips := { (withSource .stripLost (fun r => { r with st := .inService, acted := true }) opened).trips with
      stack := [.stripLost] } }

def hold (s : State) : State := setActions .s2 [{ source := .position .s2, action := .hold }] s
def trip (s : State) : State := setActions .s2 [{ source := .overload .s2, action := .retract }] s

def aCoil : Coil :=
  { key := 0, number := 7, schedule := none, head := .fill false, tail := .fill false, setup := .fill false,
    segCount := 1, offCount := 0 }

def aStandSchedule : StandSchedule := { gap := 8000, h := 3600, q := 15000, gFb := 192, gFf := 128 }
def aSchedule : Schedule := { coil := 9, hNom := 4200, stands := .fill aStandSchedule }

def aSeg (id : Nat) (kind : Kind) : Seg :=
  { id := id, kind := kind, coil := 7, coilKey := 0, entryLen := none, dev := .fill none, offGauge := false,
    lockonAt := .fill false }

/-- A coil whose HEAD, a BODY and TAIL are in span 0. -/
def tracked : State :=
  { opened with
    sched := { opened.sched with coils := [aCoil], nextKey := 1 }
    trk := { opened.trk with
      queues := opened.trk.queues.set .entry
        [{ seg := aSeg 0 .head, dist := 310 }, { seg := aSeg 1 .body, dist := 900 }, { seg := aSeg 2 .tail, dist := 1500 }]
      underEntry := some 2, nextId := 3 } }

/-- A coil that is at stand 1. -/
def atStand1 : State :=
  { tracked with sched := { tracked.sched with coils := [{ aCoil with head := (PerPoint.fill false).set (.stand .s1) true }] } }

/-- A tracking unit with a full pool but for `n` records. -/
def nearlyFull (n : Nat) (entry : EntryState) : State :=
  { tracked with trk := { tracked.trk with
      queues := tracked.trk.queues.set .entry (List.replicate (64 - n) { seg := aSeg 0 .body, dist := 900 })
      entry := entry, entryDist := 1990 } }

/-- The strip-present timer about to run out on a change to a level. -/
def debouncing (now : Bool) (s : State) : State :=
  { s with
    pins := { s.pins with strip := now }
    trk := { s.trk with strip := !now, stripTimer := some 0 } }

/-! ### Fields of requests -/

def someChannel : ChannelFields where
  channel := 2
  enable := 1
  zero := 2000
  span := 50000
  lo := 0
  hi := 60000
  n := 3
  staleTime := 20

def someTracking : TrackingFields where
  span := 0
  length := 3000
  prescaler := 1
  perCount := 1000
  segLen := 2000
  headWindow := 500
  tailWindow := 500
  debounce := 10

/-- SET_STAND for stand 1 with the default settings but for its window. -/
def someStand (gapMin gapMax : Word) : StandFields where
  stand := 1
  gapMin := gapMin
  gapMax := gapMax
  f0 := 0
  m := 5000
  fMax := 30000
  biteOn := 2000
  biteOff := 1000
  setRate := 20
  agcRate := 5
  retractRate := 200
  stepMax := 200
  settleTime := 50
  inPos := 20
  posErrLimit := 300
  posErrCount := 10

/-! ### Well-formedness -/

theorem test_wf_refuses_request_types :
    (Instr.unknownRequest 0x01 0 []).wf = false ∧ (Instr.unknownRequest 0x1B 0 []).wf = false := by decide

theorem test_wf_takes_other_types :
    (Instr.unknownRequest 0x00 0 []).wf = true ∧ (Instr.unknownRequest 0x1C 9 [1]).wf = true := by decide

theorem test_wf_refuses_long_payload : (Instr.unknownRequest 0x40 0 (List.replicate 241 0)).wf = false := by decide +kernel

theorem test_wf_takes_longest_payload : (Instr.unknownRequest 0x40 0 (List.replicate 240 0)).wf = true := by decide +kernel

/-! ### Steps -/

theorem test_step_takes_front : step { opened with pending := [.pulse .entry, .lineBreak] } =
    exec (.pulse .entry) { opened with pending := [.lineBreak] } := rfl

theorem test_no_word_spells_a_command : decodeTableWord 8 0 = none := rfl

theorem test_idle_step_lowers_timer :
    ∃ t, step { tracked with trk := { tracked.trk with stripTimer := some 10 } } = .next t ∧ t.trk.stripTimer = some 9 :=
  ⟨_, rfl, rfl⟩

/-! ### The control link -/

/-- The published check value of this polynomial and start over the digits 1 to 9. -/
theorem test_crc_of_digits : crc [0x31, 0x32, 0x33, 0x34, 0x35, 0x36, 0x37, 0x38, 0x39] = 0x29B1#16 := by decide +kernel

/-- R166's example: a STATUS request with tag 5 is D5 02 02 05 and its check. -/
theorem test_frame_status : (frame 0x02 0x05 []).take 4 = [0xD5, 0x02, 0x02, 0x05] ∧ (frame 0x02 0x05 []).length = 6 := by
  decide +kernel

theorem test_started_frame : startedPowerFrame = (Report.started .power).frame false := by decide +kernel

/-- R169's example: LOCKON_AT {1}, d_1 of -3 and no OFF_GAUGE mark in a SEGMENT report with its entry length. -/
theorem test_segment_report_bytes :
    let d : PerPoint (Option Int) := ((PerPoint.fill none).set .entry (some 8)).set (.stand .s1) (some (-3))
    (Report.segment { aSeg 122 .body with
      coil := 1
      entryLen := some 2000
      dev := d
      lockonAt := (PerStand.fill false).set .s1 true }).body.take 14 =
      [0x00, 0x7A, 0x01, 0x00, 0x01, 0x02, 0x02, 0x03, 0x07, 0xD0, 0x00, 0x08, 0xFF, 0xFD] := by decide

theorem test_identify_codes : answer (after (.identify 3) opened) = some (.ok, [0x09, 0x66, 0x17, 0x76, 0x03, 0x00]) := by
  decide

theorem test_tag_above_seven_is_range : answer (after (.status 8) opened) = some (.range, []) := by decide

theorem test_set_link_clamps : answer (after (.setLink 0 19 0) opened) = some (.adjusted, [0x00, 0x14, 0x01]) := by decide

theorem test_unknown_type_answered : answer (after (.unknownRequest 0x40 1 [0]) opened) = some (.unknownType, []) := by
  decide

theorem test_bad_length_answered :
    (decodeFrame 0x02 1 [0] opened).link.replies.map Reply.status = [.badLength] := by decide

theorem test_hunt_ignores_other_bytes : (after (.receiveByte 0xD4) opened).link.rx = .hunt := by decide

theorem test_start_byte_taken : (after (.receiveByte 0xD5) opened).link.rx = .length := by decide

/-- R153: with a reply and a report waiting, the first such choice since the reset goes to the report, though STARTED was a report
(log 5), and the next to the reply. -/
theorem test_first_choice_is_the_report :
    (Link.next { opened.link with
      replies := [{ type := 2, tag := 0, status := .ok, content := [] }],
      reports := [.channelState .exit .stale .stale] }).lastSent = .report ∧
    (Link.next { opened.link with
      firstChoice := false, replies := [{ type := 2, tag := 0, status := .ok, content := [] }],
      reports := [.channelState .exit .stale .stale] }).lastSent = .reply := by decide

/-! ### Channels (chapter 1) -/

/-- R4's examples. -/
theorem test_engineering_values :
    engineering (forceChannel .valid) 40000 = 28991 ∧ engineering (forceChannel .valid) 1500 = -381 := by decide

/-- R7's examples. -/
theorem test_filter_means :
    filterMean [16010, 15990, 16030, 16004] = some 16008 ∧ filterMean [-3, -2] = some (-2) := by decide

/-- R15's examples. -/
theorem test_filter_lengths :
    [filterLength 0, filterLength 3, filterLength 12, filterLength 200] = [1, 2, 8, 16] := by decide

/-- R13's examples. -/
theorem test_bite_thresholds :
    [nextBite StandCfg.reset false 1999, nextBite StandCfg.reset false 2000, nextBite StandCfg.reset true 1000,
      nextBite StandCfg.reset true 999] = [false, true, true, false] := by decide

theorem test_sample_above_thirteen_discarded : after (.sample 14 0 true) opened = opened := rfl

theorem test_third_rejection_faults :
    ((after (.sample 2 0 false) (after (.sample 2 0 false) (after (.sample 2 0 false) (measuring .valid)))).chan.recs.get
      (.force .s3)).st = .fault := by decide

theorem test_stale_reported : newest (after (.staleTimerExpiry (.force .s3)) (measuring .settling)) =
    some (.channelState (.force .s3) .stale .stale) := by decide

theorem test_set_channel_clears :
    ((after (.setChannel 0 someChannel) (measuring .fault)).chan.recs.get (.force .s3)).st = .settling := by decide

/-! ### Length counting and tracking (chapter 2) -/

/-- R21's example: with 1,250 µm a count, counts leave 250, 500, 750 and 0 µm. -/
theorem test_count_keeps_micrometres :
    ((after (.count (.after .s3)) { opened with
      counters := opened.counters.set (.after .s3) { prescaler := 2, perCount := 1250, tally := 1, rest := 750 } }).counters.get
        (.after .s3)) = { prescaler := 2, perCount := 1250, tally := 0, rest := 0 } := by decide

theorem test_first_pulse_only_tallies :
    ((after (.pulse (.after .s3)) { opened with
      counters := opened.counters.set (.after .s3) { prescaler := 2, perCount := 1250, tally := 0, rest := 0 } }).counters.get
        (.after .s3)).tally = 1 := by decide

/-- R41's examples. -/
theorem test_accumulators_close :
    Acc.mean { sum := 1865, count := 37 } = some 50 ∧ Acc.mean { sum := -301500, count := 50 } = some (-5000) := by decide

/-- R43's example: a HEAD with 310 mm to go is within the head window, one with 620 mm is not. -/
theorem test_bite_in_forces_near_head :
    (biteInAt .s1 tracked).trk.underStand.get .s1 = some 0 ∧ (biteInAt .s1 tracked).trk.queues.entry.length = 2 := by decide

theorem test_bite_in_without_head_trips : ((biteInAt .s2 tracked).trips.src.get .stripLost).st = .pending := by decide

/-- R30, R31: a BODY birth at SEG_LEN with 5 records free, and none with 4. -/
theorem test_body_birth_needs_five_free :
    (entryLength 10 (nearlyFull 5 .admitted)).trk.used = 60 ∧ (entryLength 10 (nearlyFull 4 .admitted)).trk.used = 60 ∧
      (entryLength 10 (nearlyFull 4 .admitted)).trk.poolFull = true := by decide

theorem test_rising_admits_coil : (after .stripPresentDebounceExpiry (debouncing true opened)).trk.entry = .admitted := by
  decide

/-- R30, R58: the HEAD of a scheduled coil in an empty mill has its setup moves issued at every stand. -/
theorem test_scheduled_head_issues_setups :
    let t := after .stripPresentDebounceExpiry
      (debouncing true { opened with sched := { opened.sched with queue := [aSchedule] } })
    t.sched.coils.map Coil.setup = [.fill true] ∧ (t.eng.get .s6).act.active?.map (fun a => a.move.target) = some 8000 := by
  decide

theorem test_watch_expiries_trip :
    ((after (.headWatchExpiry .s3) { opened with
      trk := { opened.trk with headWatch := opened.trk.headWatch.set .s3 (some 40) } }).trips.src.get .stripLost).st = .pending ∧
    ((after (.tailWatchExpiry .s3) { opened with
      trk := { opened.trk with tailWatch := opened.trk.tailWatch.set .s3 (some 40) } }).trips.src.get .stripLost).st = .pending := by
  decide

theorem test_set_tracking_busy_with_strip :
    answer (after (.setTracking 0 someTracking) tracked) = some (.busy, []) := by decide

theorem test_read_segment_not_found : answer (after (.readSegment 0 3) tracked) = some (.notFound, []) := by decide

/-- R34: the overshoot is taken from the next span's length, 4,000 mm here. -/
theorem test_overshoot_carries : enterDist tracked.trk .s1 40 = 3960 := by decide

theorem test_strip_change_starts_debounce : (after (.stripPresentChange true) opened).trk.stripTimer = some 10 := by decide

/-! ### Coils and schedules (chapter 3) -/

theorem test_setup_clamped_to_window :
    ((issueSetup .s5 8400 (setEngine .s5
      { Engine.reset with ref := 8000, cfg := { StandCfg.reset with gapMax := 8000 } } opened)).eng.get .s5).act =
      .settling { move := { origin := .setup, target := 8000, step := 20, tag := none, clamped := true }, remaining := 0 } := by
  decide

theorem test_schedule_numbers_coil : (newCoil { queue := [aSchedule], coils := [], lastCoil := 7, nextKey := 3 }).number = 9 ∧
    (newCoil { queue := [], coils := [], lastCoil := 65535, nextKey := 3 }).number = 0 := by decide

theorem test_flush_says_how_many :
    answer (after (.flushSchedules 0) { opened with sched := { opened.sched with queue := [aSchedule] } }) = some (.ok, [1]) := by
  decide

theorem test_load_refused_at_four :
    (answerLoadSchedule { coil := 0, hNom := 0, stands := .fill { gap := 0, h := 0, q := 0, gFb := 0, gFf := 0 } }
      { opened with sched := { opened.sched with queue := List.replicate 4 aSchedule } }).status = .queueFull := by decide

theorem test_read_coil_counts : answer (after (.readCoil 0) opened) = some (.ok, [0, 0, 0, 0]) := by decide

/-! ### Gauge control (chapter 4) -/

/-- R74's roundings. -/
theorem test_stretch_rounds_away :
    [stretch { StandCfg.reset with m := 2000 } 2501, stretch { StandCfg.reset with m := 2000 } (-2501),
      stretch { StandCfg.reset with m := 2000 } 2499] = [1251, -1251, 1250] := by decide

/-- R69's example. -/
theorem test_lock_on_reference : hGm { StandCfg.reset with f0 := 800, m := 4800 } 14200 3050 = 5842 := by decide

/-- The examples of R75 and R76. -/
theorem test_correction_parts :
    [deadband 10 10, deadband 10 11, deadband 10 (-14)] = [0, 1, -4] ∧ deltaFb 5000 0 192 7 = -5 ∧
      deltaFb 5000 0 192 (-7) = 5 ∧ deltaFf 5000 12000 128 (-60) = 72 := by decide

/-- The worked case at stand 3, with no deviation carried in: 2,400 - 120. -/
theorem test_worked_correction :
    deltaFb 5000 15000 192 40 = -120 ∧ deltaFf 5000 15000 128 30 = -45 ∧ stepLimit 2390 200 2235 = (2235, false) := by decide

/-- The worked case with both limits binding. -/
theorem test_limits_bind : deltaFb 4000 12000 256 (-250) = 1000 ∧ stepLimit 1250 400 2200 = (1650, true) ∧
    clamp 600 1600 1650 = 1600 := by decide

/-- R81's examples. -/
theorem test_monitor_arithmetic :
    truncDiv (-75 * 32) 256 = -9 ∧ clamp (-2000) 2000 (1950 + truncDiv (460 * 32) 256) = 2000 ∧
      2000 + truncDiv (-100 * 32) 256 = 1988 := by decide

theorem test_set_agc_arms :
    answer (after (.setAgc 0 { stand := 4, mode := 2, db := 10, gMon := 32, lockonSeg := 2 }) opened) =
      some (.ok, [4, 2, 1, 10, 0, 32, 2]) := by decide

/-! ### Move engines (chapter 5) -/

/-- "A LINK move from start to done": 870 in steps of 100 is 9 updates, and the first sends 7,900. -/
theorem test_move_starts :
    ((after (.move 4 2 7130 100) atRest).eng.get .s2).act = .ramping { move := linkTo 7130 100 .t4, remaining := 9 } ∧
      ((after (.updateExpiry .s2) (after (.move 4 2 7130 100) atRest)).port.get .s2).last = some 7900 := by decide

/-- R89: 870 in steps of 100: with one update left ref comes to the target, with nine it does not. -/
theorem test_ramp_done_lands :
    ((after (.rampDone .s2) (moving (.ramping { move := linkTo 7130 100 .t4, remaining := 1 }))).eng.get .s2).ref = 7130 ∧
      ((after (.rampDone .s2) (after (.move 4 2 7130 100) atRest)).eng.get .s2).ref = 8000 := by decide

theorem test_settle_timeout_reported :
    newest (after (.settleTimerExpiry .s2) (moving (.settling { move := linkTo 20000 100 .t4, remaining := 0 }))) =
      some (.moveDone .s2 (some .t4) .link .settleTimeout false 20000 none) := by decide

/-- "A correction combining with a ramp": from 2,330 to 2,310 at 5 is 4 updates. -/
theorem test_correction_combines :
    ((takeFeedback .s2 2310 (setEngine .s2
      { Engine.reset with ref := 2330, retracted := false, act := .ramping { move := feedbackTo 2235, remaining := 19 } }
        opened)).eng.get .s2).act = .ramping { move := feedbackTo 2310, remaining := 4 } := by decide

theorem test_hold_and_resume :
    ((after (.holdMove 0 2) (moving (.ramping { move := linkTo 9000 10 .t1, remaining := 3 }))).eng.get .s2).act =
      .held { move := linkTo 9000 10 .t1, remaining := 3 } .ramping ∧
    ((after (.resumeMove 0 2) (moving (.held { move := linkTo 9000 10 .t1, remaining := 3 } .settling))).eng.get
      .s2).settleLeft = some 50 := by decide

theorem test_cancel_unknown_tag : answer (after (.cancelMove 0 7) opened) = some (.notFound, []) ∧
    answer (after (.cancelMove 0 8) opened) = some (.range, []) := by decide

/-- R105's example: a window 500..12,000 leaves out the reference 20,000. -/
theorem test_set_stand_keeps_reference :
    (answerSetStand (someStand 500 12000) opened).status = .range := by decide

theorem test_retract_aborts_move :
    ((retract .s2 (trip (moving (.ramping { move := linkTo 9000 10 .t1, remaining := 3 })))).eng.get .s2).act =
      .settling { move := { origin := .retract, target := 20000, step := 200, tag := none, clamped := false }, remaining := 0 } := by
  decide

/-! ### Trips and interlocks (chapters 6 and 7) -/

theorem test_raise_trip_stops :
    (after (.raiseTrip 0) opened).ilk.stop = true ∧ (after (.raiseTrip 0) opened).link.attn = true := by decide

theorem test_take_then_end :
    answer (after (.takeTrip 0) (after (.raiseTrip 0) opened)) = some (.ok, [21, 0, 3, 1]) ∧
      answer (after (.endTrip 0 0 0) (after (.takeTrip 0) (after (.raiseTrip 0) opened))) = some (.ok, [21, 0, 0]) := by decide

/-- R122's example: OVERLOAD_3 asked for at priority 4, RETRACT and masked. -/
theorem test_set_source_keeps_retract_urgent :
    answer (after (.setSource 0 { source := 2, mode := 1, priority := 4, action := 2, masked := 1 }) opened) =
      some (.adjusted, [1, 1, 2, 0]) := by decide

/-- R124's example: a ceiling of 8 acts EXIT_GAUGE, source 13. -/
theorem test_ceiling_acts_exit_gauge :
    answer (after (.setCeiling 0 8) (withSource .exitGauge (fun r => { r with st := .pending })
      { opened with trips := { opened.trips with ceiling := 4 } })) = some (.ok, [8, 0x00, 0x20, 0x00]) := by decide +kernel

theorem test_clear_stop_locked : answer (after (.clearStop 0) State.reset) = some (.locked, [1]) := by decide

theorem test_unlock_opens : answer (after (.unlock 0) State.reset) = some (.ok, [1]) ∧
    (after (.unlock 0) State.reset).link.supLeft = some 250 := by decide

theorem test_silence_locks : (after .supervisionExpiry (after (.unlock 0) State.reset)).ilk.lockOpen = false := by decide

/-- R134's example: an E-stop input that falls starts its 5 ms timer, and trips as it runs out. -/
theorem test_estop_debounced :
    ((after (.estopInputChange .b true) opened).ilk.estop.get .b).timer = some 5 ∧
      ((after (.estopDebounceExpiry .b) (after (.estopInputChange .b true) opened)).trips.src.get (.estop .b)).st =
        .pending := by decide

theorem test_restart_answers : answer (after (.restart 0) opened) = some (.running, []) ∧
    answer (after (.restart 0) State.reset) = some (.ok, []) := by decide +kernel

theorem test_reset_line :
    (after .resetAsserted opened).ilk.stop = true ∧ (after .resetAsserted opened).link.sending = none ∧
      after .resetReleased opened = opened := by decide

theorem test_power_on_relocks : (after .powerOnReset opened).ilk.lockOpen = false ∧
    (after .resetReleased held).ilk.cause = .line := by decide +kernel

theorem test_peek_changes_nothing : answer (after (.peekTrip 0) opened) = some (.none, []) ∧
    (after (.peekTrip 0) opened).trips = opened.trips := by decide

/-! ### A state and operands that meet the hypotheses of each statement, clause by clause

The request statements ask `MayAnswer` of the tag and the state: the tags 0 and 7 and the states `opened` and State.reset meet it. -/

def receiving (rx : Rx) : State := { opened with link := { opened.link with rx := rx, gapLeft := some 3 } }

def fullList : State := { opened with link := { opened.link with
  replies := List.replicate 8 { type := 2, tag := 0, status := .ok, content := [] } } }

def queued (reports : List Report) : State := { opened with link := { opened.link with reports := reports } }

def aReply : Reply := { type := 2, tag := 0, status := .ok, content := [] }
def aTrip : Report := .tripRaised .stripLost 0 .stop true true
def aStale : Report := .channelState .exit .stale .stale

theorem test_witness_MayAnswer : MayAnswer 0 opened ∧ MayAnswer 7 opened ∧ MayAnswer 7 State.reset ∧ MayAnswer 0 serving ∧
    MayAnswer 7 tracked := by decide

theorem test_witness_StepRunsFrontCommand : ({ opened with pending := [.lineBreak] } : State).pending = .lineBreak :: [] := rfl

theorem test_witness_IdleStepLetsTimersRun :
    opened.pending = [] ∧ opened.pins.reset = false ∧ held.pending = [] ∧ held.pins.reset = true := by decide

theorem test_witness_CommandsCompleteAndLeaveQueue :
    Instr.lineBreak.wf = true ∧ (after (.stripPresentChange true) opened).pins ≠ opened.pins ∧
      isRequestType 0x01 = true ∧ isRequestType 0x1B = true ∧ isRequestType 0x1C = false ∧
      240 < (List.replicate 241 (0 : Byte)).length := by decide +kernel

theorem test_witness_RequestsRoundTrip : (Instr.move 7 2 7130 65535).wf = true ∧
    requestParts? (.move 7 2 7130 65535) = some (0x0D, 7, [0x02, 0x1B, 0xDA, 0xFF, 0xFF]) := by decide

theorem test_witness_ReceivedFrameIsItsRequest : (Instr.status 5).wf = true ∧ requestParts? (.status 5) = some (0x02, 5, []) ∧
    opened.pins.reset = false ∧ opened.link.rx = .hunt := by decide

theorem test_witness_ReceiverTakesEachByte :
    (receiving (.body 2 [0x02])).pins.reset = false ∧ (receiving .hunt).link.rx = .hunt ∧
      (receiving .length).link.rx = .length ∧ 2 ≤ (0x02 : Byte).toNat ∧ (0xF2 : Byte).toNat ≤ 242 ∧
      (0x01 : Byte).toNat < 2 ∧ 242 < (0xF3 : Byte).toNat ∧
      (receiving (.body 2 [0x02])).link.rx = .body 2 [0x02] ∧ [(0x02 : Byte)].length + 1 = 2 ∧
      (receiving (.body 3 [0x02])).link.rx = .body 3 [0x02] ∧ [(0x02 : Byte)].length + 1 ≠ 3 ∧
      (receiving (.check 2 [0x02, 0x05] none)).link.rx = .check 2 [0x02, 0x05] none ∧
      (receiving (.check 2 [0x02, 0x05] (some 0x94))).link.rx = .check 2 [0x02, 0x05] (some 0x94) ∧
      crc [0x02, 0x02, 0x05] = 0x94#8 ++ 0x3B#8 ∧ crc [0x02, 0x02, 0x05] ≠ 0x94#8 ++ 0x3C#8 ∧
      (receiving .length).link.gapLeft ≠ none ∧ opened.link.gapLeft = none := by decide +kernel

theorem test_witness_DecoderChecksInOrder :
    isRequestType 0x00 = false ∧ payloadSize? 0x02 = some 0 ∧ [(0 : Byte)].length ≠ 0 ∧
      payloadSize? 0x16 = some [(0 : Byte), 0].length ∧ 7 < (0x08 : Byte).toNat ∧ (0x07 : Byte).toNat ≤ 7 ∧
      opened.pins.reset = false ∧ opened.link.replies.length < 8 ∧ [(0 : Byte)].length ≤ 240 ∧
      (Instr.status 8).wf = true ∧ requestParts? (.status 8) = some (0x02, 8, []) ∧ isRequestType 0x02 = true ∧
      fullList.pins.reset = false ∧ 8 ≤ fullList.link.replies.length := by decide

theorem test_witness_TransmitterAlternates :
    opened.pins.reset = false ∧ opened.link.replies = [] ∧ opened.link.reports = [] ∧ opened.link.sending.isSome = true ∧
      ({ opened.link with replies := [aReply] } : Link).replies = [aReply] ∧
      (queued [aTrip]).link.reports = [aTrip] ∧ (queued [aTrip]).link.lastSent = .report ∧
      (queued [aTrip]).link.replies = [] ∧ (queued [aTrip]).link.firstChoice = true ∧
      ({ (queued [aTrip]).link with firstChoice := false } : Link).firstChoice = false ∧
      ({ (queued [aTrip]).link with lastSent := .reply, sending := none } : Link).lastSent = .reply ∧
      ({ (queued [aTrip]).link with lastSent := .reply, sending := none } : Link).sending = none := by decide

theorem test_witness_ReportQueueKeepsTrips :
    (queued (List.replicate 31 aTrip)).link.reports.length < 32 ∧ (queued (List.replicate 32 aTrip)).link.reports.length = 32 ∧
      aTrip.isTrip = true ∧ aStale.isTrip = false ∧
      (queued ([aTrip] ++ aStale :: List.replicate 30 aStale)).link.reports = [aTrip] ++ aStale :: List.replicate 30 aStale ∧
      ([aTrip] ++ aStale :: List.replicate 30 aStale).length = 32 ∧ (∀ p ∈ [aTrip], p.isTrip = true) ∧
      (∀ p ∈ List.replicate 32 aTrip, p.isTrip = true) := by decide +kernel

theorem test_witness_SilenceLocksAndTrips :
    opened.pins.reset = false ∧ opened.link.supLeft = none ∧ (after (.unlock 0) State.reset).link.supLeft ≠ none ∧
      (opened.trips.src.get .linkSilent).st = .quiet ∧ (opened.trips.src.get .linkSilent).masked = false ∧
      (opened.trips.src.get .linkSilent).action = .stop ∧
      (opened.trips.src.get .linkSilent).priority < opened.trips.ceiling := by decide

theorem test_witness_QueriesOnlyReply :
    Stand.ofNat? (0x00 : Byte).toNat = none ∧ Stand.ofNat? (0x01 : Byte).toNat = some .s1 ∧
      Stand.ofNat? (0x06 : Byte).toNat = some .s6 ∧ Stand.ofNat? (0x07 : Byte).toNat = none ∧
      Channel.ofNat? (0x0D : Byte).toNat = some .exit ∧ Channel.ofNat? (0x00 : Byte).toNat = some (.force .s1) ∧
      Channel.ofNat? (0x0E : Byte).toNat = none ∧ 4095 < (0x1000 : Word).toNat ∧ (0x0FFF : Word).toNat ≤ 4095 ∧
      tracked.trk.find? 0xFFF = none ∧ tracked.trk.find? 2 = some (aSeg 2 .tail) ∧
      (tracked.trk.queues.get .entry =
          [{ seg := aSeg 0 .head, dist := 310 }, { seg := aSeg 1 .body, dist := 900 }] ++
            { seg := aSeg 2 .tail, dist := 1500 } :: [] ∧
        (∀ a ∈ ([{ seg := aSeg 0 .head, dist := 310 }, { seg := aSeg 1 .body, dist := 900 }] : List Queued), a.seg.id ≠ 2) ∧
        ∀ j : Span, ¬j.num < Span.entry.num) ∧
      ({ opened.trk with underExit := some (aSeg 9 .body) } : Tracking).find? 9 = some (aSeg 9 .body) ∧
      (∀ j, ∀ a ∈ ({ opened.trk with underExit := some (aSeg 9 .body) } : Tracking).queues.get j, a.seg.id ≠ 9) ∧
      selected opened = none ∧
      selected (withSource .poolFull (fun r => { r with st := .pending, acted := true }) opened) = some .poolFull :=
  ⟨by decide, by decide, by decide, by decide, by decide, by decide, by decide, by decide, by decide, by decide, by decide,
    ⟨rfl, by decide, fun j => Nat.not_lt_zero j.num⟩, by decide,
    fun j a h => by rcases j with _ | k <;> first | cases h | (cases k <;> cases h), by decide, by decide⟩

theorem test_witness_SamplesRejectedOrMissed :
    opened.pins.reset = false ∧ 13 < 14 ∧ Channel.ofNat? 2 = some (.force .s3) ∧ Channel.ofNat? 13 = some .exit ∧
      (opened.chan.recs.get .exit).st = .off ∧ ((measuring .fault).chan.recs.get (.force .s3)).st = .fault ∧
      ((measuring .settling).chan.recs.get (.force .s3)).st = .settling ∧
      ((measuring .stale).chan.recs.get (.force .s3)).st = .stale ∧
      ((measuring .valid).chan.recs.get (.force .s3)).invalidCount < 2 ∧
      2 ≤ ({ forceChannel .valid with invalidCount := 2 } : ChannelRec).invalidCount ∧
      ((measuring .valid).chan.recs.get (.force .s3)).staleLeft ≠ none ∧
      (opened.chan.recs.get .exit).staleLeft = none := by decide

/-- A record of a scheduled coil under both gauges. -/
def gauged (kind : Kind) : State :=
  { opened with
    sched := { opened.sched with coils := [{ aCoil with schedule := some aSchedule }] }
    trk := { opened.trk with underEntry := some 0, underExit := some (aSeg 0 kind) } }

theorem test_witness_AcceptedSampleUpdatesRecord :
    (measuring .valid).pins.reset = false ∧ Channel.ofNat? 2 = some (.force .s3) ∧
      ((measuring .valid).chan.recs.get (.force .s3)).st = .valid ∧
      ((measuring .settling).chan.recs.get (.force .s3)).st = .settling ∧
      ((measuring .stale).chan.recs.get (.force .s3)).st = .stale ∧ 0 < (forceChannel .valid).n ∧
      ((gauged .head).coilOf 0).bind Coil.schedule = some aSchedule ∧ (aSeg 0 .head).kind ≠ .tail ∧
      (gauged .head).trk.segUnder .entry = some (aSeg 0 .head) ∧ (gauged .head).trk.underExit = some (aSeg 0 .head) ∧
      (∀ g, (gauged .tail).trk.segUnder .entry = some g → g.kind = .tail) ∧
      (∀ g, (gauged .tail).trk.underExit = some g → g.kind = .tail) :=
  ⟨by decide, by decide, by decide, by decide, by decide, by decide, by decide, by decide, by decide, by decide,
    fun _ h => by cases h; rfl, fun _ h => by cases h; rfl⟩

theorem test_witness_ComparatorsFollowThresholds :
    exec (.sample (Channel.num (.force .s3)) 40000 true) (measuring .valid) =
      .next (after (.sample (Channel.num (.force .s3)) 40000 true) (measuring .valid)) ∧
    ((after (.sample 2 40000 true) (measuring .valid)).chan.recs.get (.force .s3)).st = .valid ∧
    ((after (.sample 2 40000 true) (measuring .valid)).chan.recs.get (.force .s3)).filtered = some 28991 ∧
    ((after (.sample 2 40000 true) (measuring .settling)).chan.recs.get (.force .s3)).st ≠ .valid :=
  ⟨rfl, by decide, by decide, by decide⟩

theorem test_witness_SetChannelReplacesConfiguration :
    13 < ({ someChannel with channel := 14 } : ChannelFields).channel.toNat ∧
      1 < ({ someChannel with enable := 2 } : ChannelFields).enable.toNat ∧
      Channel.ofNat? someChannel.channel.toNat = some (.force .s3) ∧ someChannel.enable.toNat ≤ 1 ∧
      ((2 : Nat) ∈ [1, 2, 4, 8, 16] ∧ 2 ≤ max 1 someChannel.n.toNat ∧
        ∀ m ∈ [1, 2, 4, 8, 16], m ≤ someChannel.n.toNat → m ≤ 2) := by decide

theorem test_witness_PulsesBecomeMillimetres :
    opened.pins.reset = false ∧ (opened.counters.get .entry).prescaler ≤ (opened.counters.get .entry).tally + 1 ∧
      ({ prescaler := 2, perCount := 1250, tally := 0, rest := 0 } : Counter).tally + 1 < 2 := by decide

theorem test_witness_LengthEventDrivesWatchesAndArrivals :
    tracked.trk.queues.get .entry = { seg := aSeg 0 .head, dist := 310 } ::
        [{ seg := aSeg 1 .body, dist := 900 }, { seg := aSeg 2 .tail, dist := 1500 }] ∧
      ((310 : Int) - (310 : Nat) ≤ 0 ∧ 0 < (310 : Int) - (309 : Nat)) ∧ tracked.trk.queues.get (.after .s6) = [] ∧
      ((arriveReached .entry 3 tracked).trk.queues.get .entry).head? = some { seg := aSeg 0 .head, dist := 310 } ∧
      (∀ q ∈ tracked.trk.queues.get .entry, ((309 : Nat) : Int) < q.dist) ∧ tracked.trk.entry ≠ .admitted ∧
      (∀ j r, Span.entry.downstream = .stand j → tracked.trk.headWatch.get j = some r → 309 < r) ∧
      (∀ j r, Span.entry = .after j → tracked.trk.tailWatch.get j = some r → 309 < r) := by
  refine ⟨rfl, by decide, by decide, by decide, by decide, by decide, fun j r _ h => ?_, fun _ _ h => (nomatch h)⟩
  cases j <;> exact (nomatch h)

/-- R33: the HEAD of span 0, 310 mm away, has not arrived after 309 mm, and after 350 mm has, 40 mm into span 1. -/
theorem test_length_event_brings_head :
    (lengthEvent .entry 309 tracked).trk.underStand.get .s1 = none ∧
      ((lengthEvent .entry 350 tracked).trk.queues.get (.after .s1)).map Queued.dist = [3960] := by decide

theorem test_witness_ArrivalEntersNextSpan :
    ((tracked.trk.queues.get (.after .s1)).map Queued.dist).getLast? = none ∧
      ((tracked.trk.queues.get .entry).map Queued.dist).getLast? = some 1500 := by decide

theorem test_witness_ClosingWritesMeanDeviation :
    tracked.trk.under .entry = some 2 ∧ tracked.trk.under .exit = none ∧
      0 < ({ sum := 1865, count := 37 } : Acc).count ∧ (tracked.trk.acc.get .entry).count = 0 ∧
      ({ tracked.trk with underEntry := some 1 } : Tracking).segUnder .entry = some (aSeg 1 .body) ∧
      (aSeg 1 .body).kind ≠ .tail ∧ ({ sum := 0, count := 65534 } : Acc).count < 65535 ∧
      65535 ≤ ({ sum := 0, count := 65535 } : Acc).count := by decide

theorem test_witness_RawInputChangesStartDebounce :
    opened.pins.reset = false ∧ opened.pins.strip = false ∧ opened.pins.strip ≠ true ∧
      opened.pins.estopLow.get .a = false ∧ opened.pins.estopLow.get .a ≠ true ∧ (opened.ilk.estop.get .a).timer = none ∧
      ((after (.estopInputChange .a true) opened).ilk.estop.get .a).timer ≠ none := by decide

theorem test_witness_StripRisingAdmitsCoil :
    (debouncing true (nearlyFull 2 .empty)).pins.reset = false ∧ (debouncing true (nearlyFull 2 .empty)).trk.stripTimer ≠ none ∧
      (debouncing true (nearlyFull 2 .empty)).pins.strip = true ∧ (debouncing true (nearlyFull 2 .empty)).trk.strip = false ∧
      (debouncing true (nearlyFull 2 .empty)).trk.entry = .empty ∧
      (debouncing true (nearlyFull 2 .empty)).sched.coils.length < 4 ∧ (debouncing true (nearlyFull 2 .empty)).trk.used ≤ 62 ∧
      CoilsOk (debouncing true (nearlyFull 2 .empty)).sched :=
  ⟨by decide, by decide, by decide, by decide, by decide, by decide, by decide, ⟨by decide, by decide⟩⟩

def fullTable : State := debouncing true { opened with sched := { opened.sched with coils := List.replicate 4 aCoil } }

theorem test_witness_StripFallsOrIsRejected :
    opened.pins.reset = false ∧ opened.trk.stripTimer = none ∧
      ((debouncing true { opened with trk := { opened.trk with strip := false } }).trk.stripTimer ≠ none ∧
        ({ (debouncing true opened) with pins := opened.pins } : State).pins.strip = (debouncing true opened).trk.strip) ∧
      (fullTable.trk.stripTimer ≠ none ∧ fullTable.pins.strip = true ∧ fullTable.trk.strip = false ∧
        fullTable.trk.entry = .empty ∧ 4 ≤ fullTable.sched.coils.length) ∧
      (63 ≤ (debouncing true (nearlyFull 1 .empty)).trk.used ∧ (debouncing true (nearlyFull 1 .empty)).trk.entry = .empty) ∧
      ((debouncing false (nearlyFull 1 .rejected)).trk.entry ≠ .admitted ∧
        (debouncing false (nearlyFull 1 .rejected)).trk.stripTimer ≠ none ∧
        (debouncing false (nearlyFull 1 .rejected)).pins.strip = false ∧
        (debouncing false (nearlyFull 1 .rejected)).trk.strip = true) ∧
      ((debouncing false (nearlyFull 1 .admitted)).trk.entry = .admitted ∧
        (debouncing false (nearlyFull 1 .admitted)).trk.stripTimer ≠ none ∧
        (debouncing false (nearlyFull 1 .admitted)).pins.strip = false ∧
        (debouncing false (nearlyFull 1 .admitted)).trk.strip = true ∧
        (debouncing false (nearlyFull 1 .admitted)).sched.coils.getLast? = some aCoil) := by decide

theorem test_witness_BodyBirthsNeedFreeRecords :
    (nearlyFull 4 .empty).trk.entry ≠ .admitted ∧ (nearlyFull 4 .admitted).trk.entry = .admitted ∧
      min 65535 ((nearlyFull 4 .admitted).trk.entryDist + 9) < (nearlyFull 4 .admitted).trk.segLen ∧
      (nearlyFull 4 .admitted).trk.segLen ≤ min 65535 ((nearlyFull 4 .admitted).trk.entryDist + 10) ∧
      4 < (nearlyFull 5 .admitted).trk.free ∧ (nearlyFull 4 .admitted).trk.free ≤ 4 ∧
      (nearlyFull 4 .admitted).trk.poolFull = false ∧
      (entryLength 10 (nearlyFull 4 .admitted)).trk.poolFull = true ∧
      (nearlyFull 5 .admitted).sched.coils.getLast? = some aCoil := by decide

theorem test_witness_BitesAndWatchesFindStrip :
    ((PerStand.fill none : PerStand (Option Nat)).set .s1 (some 1)).get .s1 ≠ none ∧
      tracked.trk.headWatch.get .s1 = none ∧ atStand1.coilAt (.stand .s1) ≠ none ∧ tracked.coilAt (.stand .s1) = none ∧
      (∃ behind, tracked.trk.queues.get Stand.s1.spanBefore = [] ++ { seg := aSeg 0 .head, dist := 310 } :: behind) ∧
      ((310 : Int) ≤ (310 : Nat)) ∧ ((309 : Nat) : Int) < 310 ∧
      (∀ q ∈ tracked.trk.queues.get Stand.s2.spanBefore, q.seg.kind ≠ .head) ∧
      (∃ c, atStand1.coilAt (.stand .s1) = some c ∧ c.key = 0) ∧
      (∃ ahead, atStand1.trk.queues.get Stand.s1.spanBefore = ahead ++ [{ seg := aSeg 2 .tail, dist := 1500 }] ∧
        ∀ a ∈ ahead, ¬(a.seg.kind = .tail ∧ a.seg.coilKey = 0)) ∧
      (∀ q ∈ tracked.trk.queues.get Stand.s2.spanBefore, ¬(q.seg.kind = .tail ∧ q.seg.coilKey = 0)) ∧
      tracked.pins.reset = false :=
  ⟨by decide, by decide, by decide, by decide, ⟨_, rfl⟩, by decide, by decide, by decide, ⟨_, rfl, rfl⟩,
    ⟨[{ seg := aSeg 0 .head, dist := 310 }, { seg := aSeg 1 .body, dist := 900 }], rfl, by decide⟩, by decide, by decide⟩

/-- A coil's TAIL is about to reach the exit gauge, with 30 reports waiting. -/
def atExit : State :=
  { tracked with
    trk := { tracked.trk with underExit := some (aSeg 9 .body) }
    link := { tracked.link with reports := List.replicate 30 aStale } }

theorem test_witness_ExitArrivalsCompleteRecords :
    (aSeg 0 .head).kind ≠ .tail ∧ (aSeg 1 .body).kind ≠ .tail ∧ tracked.trk.underExit = none ∧
      tracked.coilOf (aSeg 2 .tail).coilKey = some aCoil ∧ (aSeg 2 .tail).kind = .tail ∧ atExit.trk.underExit = some (aSeg 9 .body) ∧
      atExit.coilOf (aSeg 2 .tail).coilKey = some aCoil ∧ (aSeg 9 .body).coilKey = (aSeg 2 .tail).coilKey ∧
      atExit.link.sending.isSome = true ∧ atExit.link.reports.length ≤ 30 := by decide

theorem test_witness_SetTrackingNeedsEmptyPool :
    6 < ({ someTracking with span := 7 } : TrackingFields).span.toNat ∧
      Span.ofNat? someTracking.span.toNat = some .entry ∧ Span.ofNat? 6 = some (.after .s6) ∧ tracked.trk.used ≠ 0 ∧
      opened.trk.used = 0 := by decide

theorem test_witness_SchedulesAreQueuedAndFlushed :
    ({ opened.sched with queue := List.replicate 4 aSchedule } : SchedStore).queue.length = 4 ∧
      ({ opened.sched with queue := List.replicate 3 aSchedule } : SchedStore).queue.length < 4 := by decide

theorem test_witness_SetupMovesAreTakenOrRefused :
    (trip opened).retracting .s2 = true ∧ opened.retracting .s2 = false ∧ (opened.eng.get .s2).pending.length < 4 ∧
      ((waiting (List.replicate 4 (linkTo 9000 10 .t1))).retracting .s2 = false ∧
        4 ≤ ((waiting (List.replicate 4 (linkTo 9000 10 .t1))).eng.get .s2).pending.length) := by decide

theorem test_witness_SetupsWaitForEarlierTails :
    ((gauged .head).sched.coils = [] ++ [{ aCoil with schedule := some aSchedule }] ∧ aCoil.schedule = none) ∧
      ({ opened.sched with coils := [aCoil, { aCoil with key := 1, schedule := some aSchedule }] } : SchedStore).coils =
        [] ++ aCoil :: { aCoil with key := 1, schedule := some aSchedule } :: [] ∧
    tracked.sched.coils = [] ++ [aCoil] ∧ (∀ d ∈ ([] : List Coil), d.key ≠ aCoil.key) ∧
      ({ opened.sched with coils := [aCoil, { aCoil with key := 1 }] } : SchedStore).coils =
        [] ++ aCoil :: { aCoil with key := 1 } :: [] ∧
      ([aCoil, { aCoil with key := 1 }].map Coil.key).Nodup ∧ (tracked.sched.coils.map Coil.key).Nodup := by decide

/-- Stand 3 as the worked case of chapter 4 has it. -/
def worked : State :=
  let s := setEngine .s3 { Engine.reset with
    ref := 2390, retracted := false, cfg := { StandCfg.reset with gapMin := 500, gapMax := 12000, f0 := 1000 } } opened
  let s := setChannel (.position .s3) { forceChannel .valid with filtered := some 2400 } s
  setAgc .s3
    { mode := .lockon, href := some 5350, st := .active, lockonCount := 2, stepLimited := false, atLimit := false } s

theorem test_witness_GaugeErrorOnForceValue :
    0 < (worked.eng.get .s3).cfg.m ∧ (opened.gauge.stands.get .s3).href = none ∧ opened.measured (.position .s3) = none ∧
      (worked.gauge.stands.get .s3).href = some 5350 ∧ worked.measured (.position .s3) = some 2400 ∧
      (worked.gauge.stands.get .s3).st = .active ∧
      ({ (worked.gauge.stands.get .s3) with st := .suspended } : AgcStand).st ≠ .active := by decide

/-- The worked case: the gauge error is 50. -/
theorem test_worked_gauge_error : gaugeError worked .s3 5350 16000 2400 = 50 := by decide

theorem test_witness_CorrectionFollowsSteps :
    0 ≤ (worked.eng.get .s3).cfg.stepMax ∧ inWindow (worked.eng.get .s3).cfg (worked.eng.get .s3).ref := by
  unfold inWindow
  decide

theorem test_witness_FeedbackStartsCombinesOrIsDiscarded :
    (State.reset.eng.get .s3).retracted = true ∧
      ((worked.eng.get .s3).retracted = false ∧ (worked.eng.get .s3).act = .idle ∧ 0 < (worked.eng.get .s3).cfg.agcRate ∧
        (worked.eng.get .s3).pending = [] ∧ worked.blocked .s3 = false) ∧
      (((hold atRest).eng.get .s2).retracted = false ∧ ((hold atRest).eng.get .s2).act = .idle ∧
        (hold atRest).blocked .s2 = true) ∧
      (((moving (.ramping { move := feedbackTo 2235, remaining := 19 })).eng.get .s2).retracted = false ∧
        ((moving (.ramping { move := feedbackTo 2235, remaining := 19 })).eng.get .s2).act =
          .ramping { move := feedbackTo 2235, remaining := 19 } ∧
        0 < (feedbackTo 2235).step ∧ (feedbackTo 2235).origin = .feedback) ∧
      (((moving (.settling { move := linkTo 9000 10 .t1, remaining := 0 })).eng.get .s2).retracted = false ∧
        ((moving (.settling { move := linkTo 9000 10 .t1, remaining := 0 })).eng.get .s2).act =
          .settling { move := linkTo 9000 10 .t1, remaining := 0 } ∧ (linkTo 9000 10 .t1).origin ≠ .feedback) ∧
      ((moving (.held { move := feedbackTo 2235, remaining := 19 } .ramping)).eng.get .s2).act =
        .held { move := feedbackTo 2235, remaining := 19 } .ramping := by decide

/-- A stand about to lock on. -/
def locking : State :=
  let s := setChannel (.force .s3) { forceChannel .valid with filtered := some 14200 } worked
  setAgc .s3 { (worked.gauge.stands.get .s3) with href := none, lockonCount := 1 }
    { s with chan := { s.chan with biteIn := .fill true } }

theorem test_witness_ReferenceFollowsCoil :
    (aSeg 0 .head).kind = .head ∧ (aSeg 2 .tail).kind = .tail ∧
      ((aSeg 1 .body).kind = .body ∧ (locking.gauge.stands.get .s3).mode = .lockon ∧
        (locking.gauge.stands.get .s3).href = none ∧
        locking.gauge.lockonSeg ≤ min 65535 ((locking.gauge.stands.get .s3).lockonCount + 1) ∧
        locking.chan.biteIn.get .s3 = true ∧ (aSeg 1 .body).offGauge = false ∧
        locking.measured (.force .s3) = some 14200 ∧ locking.measured (.position .s3) = some 2400) ∧
      (opened.gauge.stands.get .s3).mode ≠ .lockon ∧
      min 65535 ((opened.gauge.stands.get .s3).lockonCount + 1) < opened.gauge.lockonSeg := by decide

/-- Stand 6 ACTIVE with a trim, and one coil at stand 6 and the exit gauge. -/
def trimming (m : Int) : State :=
  setAgc .s6 (worked.gauge.stands.get .s3)
    { worked with
      gauge := { worked.gauge with m := m }
      sched := { worked.sched with coils := [{ aCoil with head := .fill true }] } }

def measuredSeg (d : Int) : Seg := { aSeg 1 .body with dev := (aSeg 1 .body).dev.set .exit (some d) }

theorem test_witness_MonitorTrimsWithinLimits :
    (aSeg 1 .body).dev.exit = none ∧ (opened.gauge.stands.get .s6).st ≠ .active ∧
      ((measuredSeg 460).dev.exit = some 460 ∧ (measuredSeg 460).offGauge = false ∧
        ((trimming 1950).gauge.stands.get .s6).st = .active ∧
        (trimming 1950).coilAt .exit = some { aCoil with head := .fill true } ∧
        (trimming 1950).coilAt (.stand .s6) = some { aCoil with head := .fill true }) ∧
      (2000 : Int) < (trimming 1950).gauge.m + (460 * (trimming 1950).gauge.gMon).tdiv 256 ∧
      (trimming 1950).gauge.m + (400 * (trimming 1950).gauge.gMon).tdiv 256 = 2000 ∧
      (trimming (-1990)).gauge.m + (-100 * (trimming (-1990)).gauge.gMon).tdiv 256 < -2000 ∧
      (trimming (-1988)).gauge.m + (-100 * (trimming (-1988)).gauge.gMon).tdiv 256 = -2000 := by decide

theorem test_witness_SetAgcChangesMode :
    Stand.ofNat? 0 = none ∧ Stand.ofNat? 7 = none ∧ 2 < (0x03 : Byte).toNat ∧ Stand.ofNat? 6 = some .s6 ∧
      agcMode? 2 = some .lockon ∧ agcMode? 0 = some .off ∧ State.reset.ilk.lockOpen = false ∧ opened.ilk.lockOpen = true ∧
      (opened.gauge.stands.get .s6).mode = .off ∧ (opened.gauge.stands.get .s6).mode ≠ .lockon := by decide

theorem test_witness_UpdatesStepTowardTarget :
    opened.pins.reset = false ∧ 1 < ({ move := linkTo 9000 10 .t1, remaining := 2 } : Active).remaining ∧
      ({ move := linkTo 9000 10 .t1, remaining := 1 } : Active).remaining ≤ 1 ∧
      ((moving (.ramping { move := linkTo 9000 10 .t1, remaining := 2 })).eng.get .s2).act =
        .ramping { move := linkTo 9000 10 .t1, remaining := 2 } ∧
      (∀ a, (opened.eng.get .s2).act ≠ .ramping a) :=
  ⟨by decide, by decide, by decide, by decide, fun _ h => (nomatch h)⟩

theorem test_witness_TakenMovesStartOrWait :
    0 < (linkTo 9000 10 .t1).step ∧ (atRest.eng.get .s2).act = .idle ∧ (atRest.eng.get .s2).pending = [] ∧
      atRest.blocked .s2 = false ∧ (hold atRest).blocked .s2 = true ∧
      ((moving (.ramping { move := linkTo 9000 10 .t1, remaining := 3 })).eng.get .s2).act ≠ .idle := by decide

theorem test_witness_FinishedMovesGiveWay :
    ((moving (.settling { move := linkTo 20000 10 .t1, remaining := 0 })).eng.get .s2).act =
        .settling { move := linkTo 20000 10 .t1, remaining := 0 } ∧
      ((moving (.settling { move := linkTo 20000 10 .t1, remaining := 0 })).eng.get .s2).settleLeft ≠ none ∧
      (opened.eng.get .s2).settleLeft = none ∧ (opened.eng.get .s2).pending = [] ∧ opened.blocked .s2 = false ∧
      (((20020 - 20000 : Int).natAbs : Int) ≤ StandCfg.reset.inPos ∧ StandCfg.reset.inPos < ((20021 - 20000 : Int).natAbs : Int)) ∧
      (((waiting [linkTo 9000 10 .t1]).eng.get .s2).pending = linkTo 9000 10 .t1 :: [] ∧
        (waiting [linkTo 9000 10 .t1]).blocked .s2 = false ∧ 0 < (linkTo 9000 10 .t1).step) ∧
      (opened.eng.get .s2).act = .idle ∧
      ((moving (.ramping { move := linkTo 9000 10 .t1, remaining := 3 })).eng.get .s2).act ≠ .idle := by decide

theorem test_witness_MoveIsCheckedThenTaken :
    Stand.ofNat? 7 = none ∧ Stand.ofNat? 2 = some .s2 ∧ Tag.ofNat? 7 = some .t7 ∧
      ¬inWindow (atRest.eng.get .s2).cfg (20001 : Word).toNat ∧ inWindow (atRest.eng.get .s2).cfg (20000 : Word).toNat ∧
      ¬inWindow (atRest.eng.get .s2).cfg (999 : Word).toNat ∧ inWindow (atRest.eng.get .s2).cfg (1000 : Word).toNat ∧
      State.reset.ilk.lockOpen = false ∧ (trip atRest).ilk.lockOpen = true ∧ (trip atRest).retracting .s2 = true ∧
      atRest.retracting .s2 = false ∧ (after (.move 7 2 9000 10) atRest).slots.get .t7 ≠ none ∧
      atRest.slots.get .t7 = none ∧ (atRest.eng.get .s2).pending.length < 4 ∧
      ((waiting (List.replicate 4 (linkTo 9000 10 .t1))).slots.get .t7 = none ∧
        (waiting (List.replicate 4 (linkTo 9000 10 .t1))).ilk.lockOpen = true ∧
        (waiting (List.replicate 4 (linkTo 9000 10 .t1))).retracting .s2 = false ∧
        4 ≤ ((waiting (List.replicate 4 (linkTo 9000 10 .t1))).eng.get .s2).pending.length) := by
  unfold inWindow
  decide

theorem test_witness_HostHoldsResumesCancels :
    Stand.ofNat? 7 = none ∧ Stand.ofNat? 2 = some .s2 ∧
      ((moving (.ramping { move := linkTo 9000 10 .t1, remaining := 3 })).eng.get .s2).act =
        .ramping { move := linkTo 9000 10 .t1, remaining := 3 } ∧
      ((moving (.settling { move := linkTo 9000 10 .t1, remaining := 0 })).eng.get .s2).act =
        .settling { move := linkTo 9000 10 .t1, remaining := 0 } ∧
      (linkTo 9000 10 .t1).origin ≠ .retract ∧ (opened.eng.get .s2).act = .idle ∧
      (Activity.ramping { move := { linkTo 20000 10 .t1 with origin := .retract }, remaining := 3 }).isOf .retract = true ∧
      State.reset.ilk.lockOpen = false ∧ (hold opened).ilk.lockOpen = true ∧ (hold opened).blocked .s2 = true ∧
      opened.blocked .s2 = false ∧ (∀ a p, (opened.eng.get .s2).act ≠ .held a p) ∧
      ((moving (.held { move := linkTo 9000 10 .t1, remaining := 3 } .ramping)).eng.get .s2).act =
        .held { move := linkTo 9000 10 .t1, remaining := 3 } .ramping ∧
      7 < (0x08 : Byte).toNat ∧ Tag.ofNat? 7 = some .t7 ∧ opened.slots.get .t7 = none ∧
      (after (.move 7 2 9000 10) atRest).slots.get .t7 = some .s2 ∧
      (after (.move 7 2 9000 10) (waiting [linkTo 9000 10 .t1])).slots.get .t7 = some .s2 ∧
      ((after (.move 7 2 9000 10) (waiting [linkTo 9000 10 .t1])).eng.get .s2).pending =
        [linkTo 9000 10 .t1] ++ linkTo 9000 10 .t7 :: [] ∧ (linkTo 9000 10 .t7).tag = some .t7 ∧
      (∀ p ∈ [linkTo 9000 10 .t1] ++ [], p.tag ≠ some .t7) :=
  ⟨by decide, by decide, by decide, by decide, by decide, by decide, by decide, by decide, by decide, by decide, by decide,
    fun _ _ h => (nomatch h), by decide, by decide, by decide, by decide, by decide, by decide, by decide, by decide, by decide⟩

theorem test_witness_SetStandKeepsReferenceInWindow :
    Stand.ofNat? ({ someStand 1000 20000 with stand := 0 } : StandFields).stand.toNat = none ∧
      Stand.ofNat? (someStand 1000 20000).stand.toNat = some .s1 ∧
      inWindow (clampedCfg (someStand 1000 20000)) (opened.eng.get .s1).ref ∧
      ¬inWindow (clampedCfg (someStand 1000 19999)) (opened.eng.get .s1).ref ∧ (opened.eng.get .s1).act = .idle ∧
      (opened.eng.get .s1).pending = [] ∧
      ((moving (.ramping { move := linkTo 9000 10 .t1, remaining := 3 })).eng.get .s2).act ≠ .idle ∧
      ({ Engine.reset with pending := [linkTo 9000 10 .t1] } : Engine).pending ≠ [] := by
  unfold inWindow
  decide

/-- A retract-type entry at a stand with a move active and one waiting, and 30 reports waiting. -/
def swept : State :=
  { trip (waiting [linkTo 9000 10 .t1]) with link := { opened.link with reports := List.replicate 30 aStale } }

/-- A retract-type entry at a stand with a RETRACT move active and a move waiting behind it, and 30 reports waiting. -/
def opening : State :=
  { trip (setEngine .s2 { Engine.reset with
      act := .ramping { move := { linkTo 20000 200 .t1 with origin := .retract, tag := none }, remaining := 3 }
      retracted := false, pending := [linkTo 9000 10 .t1] } opened) with
    link := { opened.link with reports := List.replicate 30 aStale } }

theorem test_witness_RetractSweepsEngine :
    (opening.retracting .s2 = true ∧ 0 < (opening.eng.get .s2).cfg.retractRate ∧ opening.link.sending.isSome = true ∧
      opening.link.reports.length + (opening.eng.get .s2).pending.length < 32 ∧
      (opening.eng.get .s2).act.isOf .retract = true) ∧
    ((trip opened).retracting .s2 = true ∧ ((trip opened).eng.get .s2).act = .idle ∧
      0 < ((trip opened).eng.get .s2).cfg.retractRate ∧ (trip opened).link.sending.isSome = true ∧
      (trip opened).link.reports.length + ((trip opened).eng.get .s2).pending.length < 32) ∧
    (swept.eng.get .s2).act ≠ .idle ∧
    (swept.retracting .s2 = true ∧ 0 < (swept.eng.get .s2).cfg.retractRate ∧ swept.link.sending.isSome = true ∧
      swept.link.reports.length + (swept.eng.get .s2).pending.length < 32 ∧ (swept.eng.get .s2).act.isOf .retract = false) := by decide

/-- R101, log 9: a dropped FEEDBACK move takes the position-error count with it. -/
theorem test_retract_drops_feedback :
    ((retract .s2 (trip (setEngine .s2 { Engine.reset with
      act := .ramping { move := feedbackTo 2235, remaining := 19 }, retracted := false, posErr := 4 } opened))).eng.get
      .s2).posErr = 0 := by decide

theorem test_witness_EdgesLatchSources :
    (withSource .poolFull (fun r => { r with masked := true }) opened).trips.src.poolFull.masked = true ∧
      (withSource .poolFull (fun r => { r with st := .pending }) opened).trips.src.poolFull.st = .pending ∧
      serving.trips.src.stripLost.masked = false ∧ serving.trips.src.stripLost.st = .inService ∧
      serving.trips.src.stripLost.mode = .edge ∧ opened.trips.src.poolFull.st = .quiet ∧
      opened.trips.src.poolFull.priority = 7 ∧ opened.trips.src.poolFull.priority < opened.trips.ceiling ∧
      ({ opened.trips with ceiling := 7 } : Trips).ceiling ≤ opened.trips.src.poolFull.priority ∧
      opened.trips.src.exitGauge.live = false ∧
      (withSource .exitGauge (fun r => { r with live := true }) opened).trips.src.exitGauge.live = true := by decide

theorem test_witness_ActionsEnterAndLeaveSets :
    Stand.s2 ∈ scope (.overload .s2) ∧ Stand.s1 ∉ scope (.overload .s2) ∧ Stand.s6 ∈ scope .stripLost ∧
      (trip opened).retracting .s2 = true ∧ opened.retracting .s2 = false ∧
      (∃ g ∈ tracked.trk.segs, g.id = 2) ∧ (releaseAction (.position .s2) (hold opened)).blocked .s2 = false ∧
      (releaseAction (.overload .s2) (hold opened)).blocked .s2 = true ∧ (hold opened).blocked .s2 = true ∧
      ((hold (setEngine .s2 { Engine.reset with pending := [linkTo 9000 10 .t1] } opened)).eng.get .s2).pending =
        linkTo 9000 10 .t1 :: [] ∧ ((hold opened).eng.get .s2).act = .idle ∧ 0 < (linkTo 9000 10 .t1).step := by decide

theorem test_witness_TakeTripSelectsMostUrgent :
    selected opened = none ∧
      selected (withSource .poolFull (fun r => { r with st := .pending, acted := true }) opened) = some .poolFull ∧
      selected (withSource .linkSilent (fun r => { r with st := .pending, acted := true }) serving) = none := by decide

theorem test_witness_EndTripRaisesOrReleases :
    1 < (0x02 : Byte).toNat ∧ opened.trips.stack = [] ∧ serving.trips.stack = .stripLost :: [] ∧ 23 < (24 : Byte).toNat ∧
      Source.ofNat? 12 = some .stripLost ∧ Source.ofNat? 23 = some .poolFull ∧
      (serving.trips.src.get .poolFull).st ≠ .inService ∧ (serving.trips.src.get .stripLost).st = .inService ∧
      (serving.trips.src.get .stripLost).mode = .edge ∧ (serving.trips.src.get .stripLost).rep = false ∧
      ((withSource .stripLost (fun r => { r with rep := true }) serving).trips.src.get .stripLost).rep = true ∧
      ((withSource .stripLost (fun r => { r with mode := .level, live := true }) serving).trips.src.get .stripLost).live =
        true := by decide

theorem test_witness_SetSourceIsCheckedThenLatches :
    23 < (24 : Byte).toNat ∧ 1 < (2 : Byte).toNat ∧ 3 < (4 : Byte).toNat ∧ Source.ofNat? 15 = some .channelFault ∧
      srcMode? 1 = some .level ∧ srcMode? 0 = some .edge ∧ action? 3 = some .stop ∧ yesNo? 1 = some true ∧
      yesNo? 0 = some false ∧ (opened.trips.src.get .channelFault).st = .quiet ∧
      (serving.trips.src.get .stripLost).st ≠ .quiet ∧ (opened.trips.src.get .channelFault).live = false ∧
      ((withSource .channelFault (fun r => { r with live := true }) opened).trips.src.get .channelFault).live = true := by
  decide

theorem test_witness_CeilingActsEligibleSources :
    ((withSource .exitGauge (fun r => { r with st := .pending }) opened).trips.src.get .exitGauge).st = .pending ∧
      (opened.trips.src.get .exitGauge).priority < clampNat 2 8 (6 : Byte).toNat ∧
      ¬(opened.trips.src.get .exitGauge).priority < clampNat 2 8 (5 : Byte).toNat ∧
      (opened.trips.src.get .commanded).masked = false ∧ (opened.trips.src.get .commanded).st = .quiet := by decide

/-- R124, R129: a PENDING STOP source that a new ceiling makes eligible asserts the line and opens the gaps. -/
theorem test_ceiling_applies_stop :
    let t := after (.setCeiling 0 8) (withSource .commanded (fun r => { r with st := .pending, priority := 7 })
      { opened with trips := { opened.trips with ceiling := 4 } })
    t.ilk.stop = true ∧ (t.eng.get .s6).act.isOf .retract = true := by decide +kernel

theorem test_witness_ClearStopAndUnlockByState :
    State.reset.ilk.lockOpen = false ∧ opened.ilk.lockOpen = true ∧
      (∃ x, (serving.trips.src.get x).action = .stop ∧ (serving.trips.src.get x).acted = true) ∧
      (¬∃ x, (opened.trips.src.get x).action = .stop ∧ (opened.trips.src.get x).acted = true) ∧
      ((withSource .linkSilent (fun r => { r with st := .pending }) opened).trips.src.get .linkSilent).st ≠ .quiet ∧
      (opened.trips.src.get .linkSilent).st = .quiet := by
  refine ⟨by decide, by decide, ⟨.stripLost, by decide⟩, ?_, by decide, by decide⟩
  intro ⟨x, h⟩
  cases x with
  | overload k => cases k <;> exact absurd h.2 (by decide)
  | position k => cases k <;> exact absurd h.2 (by decide)
  | estop e => cases e <;> exact absurd h.2 (by decide)
  | _ => exact absurd h.2 (by decide)

theorem test_witness_RestartClearsRunningState :
    opened.ilk.stop = false ∧ State.reset.ilk.stop = true ∧
      (∃ k, ((moving (.ramping { move := linkTo 9000 10 .t1, remaining := 3 })).eng.get k).act ≠ .idle) ∧
      ¬∃ k, (State.reset.eng.get k).act ≠ .idle ∨ (State.reset.eng.get k).pending ≠ [] := by
  refine ⟨by decide, by decide, ⟨.s2, by decide⟩, ?_⟩
  intro ⟨k, h⟩
  cases k <;> exact absurd h (by decide)

/-- R142, log 6: while RESET is asserted strip at the entry changes the line's level and starts no timer. -/
theorem test_held_follows_lines :
    (after (.stripPresentChange true) held).pins.strip = true ∧ (after (.stripPresentChange true) held).trk.stripTimer = none ∧
      (after (.estopInputChange .b true) held).pins.estopLow.get .b = true ∧
      ((after (.estopInputChange .b true) held).ilk.estop.get .b).timer = none := by decide

theorem test_witness_ResetCommandsStartAfresh :
    opened.pins.reset = false ∧ held.pins.reset = true ∧ Instr.lineBreak.wf = true ∧ Instr.lineBreak ≠ .powerOnReset ∧
      Instr.lineBreak ≠ .resetAsserted ∧ Instr.lineBreak ≠ .resetReleased := by decide

/-- Every invariant's statement asks the invariant of a state and a step from it: `opened` has AGC states as derived, ATTN as selected,
stores within capacity and spans in order, and steps. -/
theorem test_witness_step_from_opened : ∃ t, step opened = .next t := ⟨_, rfl⟩

theorem test_witness_EnginesOk : EnginesOk opened := by
  intro k
  cases k <;> exact ⟨by decide, by unfold inWindow; decide, fun a h => (nomatch h), fun m h => (nomatch h), by decide⟩

theorem test_witness_SlotsOk : SlotsOk opened := by
  refine ⟨fun k m h => ?_, fun t k => ?_, fun k => ?_⟩
  · cases k <;> cases h
  · cases t <;> cases k <;> decide
  · cases k <;> decide

theorem test_witness_GaugeOk_and_AttnOk : GaugeOk opened ∧ AttnOk opened := by
  refine ⟨⟨fun k => ?_, by decide, by decide⟩, fun _ => by decide⟩
  cases k <;> decide

theorem test_witness_InputsOk : InputsOk opened := by
  constructor
  case off =>
    intro c _
    cases c with
    | force k | position k => cases k <;> rfl
    | entry | exit => rfl
  case chan =>
    intro c
    cases c with
    | force k | position k => cases k <;> rfl
    | entry | exit => rfl
  all_goals decide

theorem test_witness_ActionsOk : ActionsOk opened := by
  have source : ∀ x, opened.trips.src.get x = State.reset.trips.src.get x := fun _ => rfl
  have quiet : ∀ x, SourceOk 8 (State.reset.trips.src.get x) ∧ (State.reset.trips.src.get x).acted = false ∧
      (State.reset.trips.src.get x).st ≠ .inService := by
    intro x
    cases x with
    | overload k => cases k <;> exact ⟨by constructor <;> decide, by decide, by decide⟩
    | position k => cases k <;> exact ⟨by constructor <;> decide, by decide, by decide⟩
    | estop e => cases e <;> exact ⟨by constructor <;> decide, by decide, by decide⟩
    | _ => exact ⟨by constructor <;> decide, by decide, by decide⟩
  refine ⟨⟨fun x => (quiet x).1, by decide, fun x => ⟨fun h => (by cases h), fun h => absurd h (quiet x).2.2⟩, .nil⟩, ?_, ?_, ?_⟩
  · intro k x a
    constructor
    · intro h
      cases k <;> cases h
    · intro h
      rw [source, (quiet x).2.1] at h
      exact absurd h.1 (by decide)
  · intro k
    cases k <;> exact .nil
  · intro x _ h
    rw [source, (quiet x).2.1] at h
    exact absurd h (by decide)

theorem test_witness_RoomOk_CoilsOk_QueuesOk : RoomOk tracked ∧ CoilsOk tracked.sched ∧ QueuesOk tracked.trk := by
  refine ⟨⟨by decide, by decide, by decide, by decide, by decide, by decide⟩, ⟨by decide, by decide⟩, ⟨?_, ?_⟩⟩
  · intro k
    cases k with
    | entry => decide
    | after j => cases j <;> decide
  · intro k
    cases k with
    | entry => decide
    | after j => cases j <;> decide

end Sys2Proof.Tests
end

section
/-! The schedule store's two requests: what LOAD_SCHEDULE stores and answers, and what FLUSH_SCHEDULES discards (R50 to R52). -/
namespace Sys2Proof

theorem PerStand.toList_eq_map_get {α : Type} (t : PerStand α) : t.toList = Stand.all.map t.get := rfl

theorem PerStand.ofFn_inj {α : Type} {f g : Stand → α} : PerStand.ofFn f = .ofFn g ↔ ∀ k, f k = g k :=
  ⟨fun h k => by simpa using congrArg (PerStand.get · k) h, fun h => PerStand.eq_of_get (by simpa using h)⟩

end Sys2Proof

namespace Sys2Proof.Machine
open Sys2Proof.Safety

/-! ### Clamped items -/

/-- R167: an unsigned field is clamped from above only. -/
theorem clamp_zero_uint {w : Nat} (hi : Nat) (x : BitVec w) : clamp 0 hi (uint x) = min (x.toNat : Int) hi := by
  unfold clamp uint
  split
  · omega
  · split <;> omega

/-- A clamped field is as it was sent exactly when it is within its limit. -/
theorem clamp_zero_uint_eq_self {w : Nat} (hi : Nat) (x : BitVec w) : clamp 0 hi (uint x) = uint x ↔ x.toNat ≤ hi := by
  rw [clamp_zero_uint, uint]
  omega

/-! ### The items of a schedule -/

/-- R51: a stand's items as the request carries them, before any is clamped. -/
def unclampedStand (g : StandScheduleFields) : StandSchedule where
  gap := uint g.gap
  h := uint g.h
  q := uint g.q
  gFb := uint g.gFb
  gFf := uint g.gFf

/-- R51: the schedule a request carries, before any item is clamped. -/
def unclampedSchedule (f : ScheduleFields) : Schedule where
  coil := f.coil.toNat
  hNom := uint f.hNom
  stands := .ofFn fun k => unclampedStand (f.stands.get k)

theorem sentSchedule_eq (f : ScheduleFields) : sentSchedule f = scheduleValues (unclampedSchedule f) := rfl

/-- R50: a schedule's items in order determine it. -/
theorem scheduleValues_inj {d e : Schedule} : scheduleValues d = scheduleValues e ↔ d = e := by
  refine ⟨fun h => ?_, congrArg _⟩
  obtain ⟨coil, hNom, stands⟩ := d
  obtain ⟨coil', hNom', stands'⟩ := e
  have same : coil = coil' ∧ hNom = hNom' ∧ ∀ k, stands.get k = stands'.get k := by
    simp only [scheduleValues, PerStand.toList_eq_map_get, Stand.all, List.map_cons, List.map_nil, List.cons_append,
      List.nil_append, List.cons.injEq, Int.ofNat_inj] at h
    obtain ⟨sameCoil, sameHNom, sameItems⟩ := h
    refine ⟨sameCoil, sameHNom, fun k => ?_⟩
    rw [StandSchedule.mk.injEq]
    cases k <;> simp only [sameItems, and_self]
  obtain ⟨rfl, rfl, stand⟩ := same
  rw [PerStand.eq_of_get stand]

/-- R50, R168: the items in the reply: each kind of item for the six stands in turn. -/
theorem scheduleValues_flatMap_be2 (d : Schedule) :
    (scheduleValues d).flatMap be2 =
      be2 d.coil ++ be2 d.hNom ++ (Stand.all.flatMap fun k => be2 (d.stands.get k).gap) ++
        (Stand.all.flatMap fun k => be2 (d.stands.get k).h) ++ (Stand.all.flatMap fun k => be2 (d.stands.get k).q) ++
        (Stand.all.flatMap fun k => be2 (d.stands.get k).gFb) ++
        (Stand.all.flatMap fun k => be2 (d.stands.get k).gFf) := by
  simp only [scheduleValues, PerStand.toList_eq_map_get, List.flatMap_append, List.flatMap_map, List.flatMap_cons,
    List.flatMap_nil, List.append_nil]

/-! ### What is stored -/

/-- R50, R51: the limits of a stand's items. -/
theorem storedStand_eq (g : StandScheduleFields) :
    storedStand g =
      { gap := min g.gap.toNat 30000, h := min g.h.toNat 30000, q := min g.q.toNat 20000, gFb := min g.gFb.toNat 256,
        gFf := min g.gFf.toNat 256 } := by
  rw [storedStand, StandSchedule.mk.injEq]
  exact ⟨clamp_zero_uint 30000 _, clamp_zero_uint 30000 _, clamp_zero_uint 20000 _, clamp_zero_uint 256 _,
    clamp_zero_uint 256 _⟩

/-- R50, R51: a schedule as it is stored, with its limits written out. -/
theorem storedSchedule_eq (f : ScheduleFields) :
    storedSchedule f =
      { coil := f.coil.toNat
        hNom := min f.hNom.toNat 30000
        stands := .ofFn fun k =>
          { gap := min (f.stands.get k).gap.toNat 30000, h := min (f.stands.get k).h.toNat 30000
            q := min (f.stands.get k).q.toNat 20000, gFb := min (f.stands.get k).gFb.toNat 256
            gFf := min (f.stands.get k).gFf.toNat 256 } } := by
  rw [storedSchedule, Schedule.mk.injEq]
  exact ⟨rfl, clamp_zero_uint 30000 _, congrArg PerStand.ofFn (funext fun k => storedStand_eq (f.stands.get k))⟩

/-- R51: a stand's items are stored as sent exactly when each is within its limit. -/
theorem storedStand_eq_unclamped_iff (g : StandScheduleFields) :
    storedStand g = unclampedStand g ↔
      g.gap.toNat ≤ 30000 ∧ g.h.toNat ≤ 30000 ∧ g.q.toNat ≤ 20000 ∧ g.gFb.toNat ≤ 256 ∧ g.gFf.toNat ≤ 256 := by
  rw [storedStand, unclampedStand, StandSchedule.mk.injEq]
  exact and_congr (clamp_zero_uint_eq_self 30000 _) <| and_congr (clamp_zero_uint_eq_self 30000 _) <|
    and_congr (clamp_zero_uint_eq_self 20000 _) <| and_congr (clamp_zero_uint_eq_self 256 _)
      (clamp_zero_uint_eq_self 256 _)

/-- R51: the items are stored as sent exactly when every one is within its limit. -/
theorem storedSchedule_eq_unclamped_iff (f : ScheduleFields) :
    storedSchedule f = unclampedSchedule f ↔
      f.hNom.toNat ≤ 30000 ∧ ∀ k, (f.stands.get k).gap.toNat ≤ 30000 ∧ (f.stands.get k).h.toNat ≤ 30000 ∧
        (f.stands.get k).q.toNat ≤ 20000 ∧ (f.stands.get k).gFb.toNat ≤ 256 ∧ (f.stands.get k).gFf.toNat ≤ 256 := by
  rw [storedSchedule, unclampedSchedule, Schedule.mk.injEq, PerStand.ofFn_inj]
  simp only [storedStand_eq_unclamped_iff, true_and]
  exact and_congr_left' (clamp_zero_uint_eq_self 30000 _)

/-! ### The requests -/

theorem okOr_cases (adjusted : Bool) : okOr adjusted = .ok ∨ okOr adjusted = .adjusted := by
  cases adjusted
  · exact .inl rfl
  · exact .inr rfl

theorem okOr_eq_ok (adjusted : Bool) : okOr adjusted = .ok ↔ adjusted = false := by cases adjusted <;> simp [okOr]

/-- R51, R152: LOAD_SCHEDULE answers OK exactly when no item had to be clamped. -/
theorem okOr_scheduleValues_eq_ok (f : ScheduleFields) :
    okOr (scheduleValues (storedSchedule f) != sentSchedule f) = .ok ↔ storedSchedule f = unclampedSchedule f := by
  rw [okOr_eq_ok, bne_eq_false_iff_eq, sentSchedule_eq, scheduleValues_inj]

section
variable {tag : Byte} {s : State} {f : ScheduleFields}

/-- R151, R152: a request that may be answered ends with its owner's reply, where nothing follows the reply. -/
theorem request_replied {type : Byte} {owner : State → Answer} {status : Status} {content : List Byte} {t : State}
    (h : MayAnswer tag s) (answer : owner (heard s) = { state := t, status := status, content := content }) :
    Host.Outcome.next (request type tag owner s) = replied type tag status content t := by
  rw [request_answered h, answer]
  rfl

/-- R51: with 4 schedules waiting LOAD_SCHEDULE is refused. -/
theorem exec_loadSchedule_full (h : MayAnswer tag s) (full : s.sched.queue.length = 4) :
    exec (.loadSchedule tag f) s = replied 0x0B tag .queueFull [4] (heard s) := by
  refine request_replied h ?_
  rw [answerLoadSchedule, Config.scheduleQueueSize, heard_sched, full, if_pos (Nat.le_refl 4)]
  rfl

/-- R51: with room in the queue LOAD_SCHEDULE adds the schedule it stores at the back. -/
theorem exec_loadSchedule_room (h : MayAnswer tag s) (room : s.sched.queue.length < 4) :
    exec (.loadSchedule tag f) s =
      replied 0x0B tag (okOr (scheduleValues (storedSchedule f) != sentSchedule f))
        ((scheduleValues (storedSchedule f)).flatMap be2 ++ be1 (s.sched.queue.length + 1 : Nat))
        { heard s with sched := { s.sched with queue := s.sched.queue ++ [storedSchedule f] } } := by
  refine request_replied h ?_
  rw [answerLoadSchedule, Config.scheduleQueueSize, heard_sched, if_neg (Nat.not_le.mpr room)]
  rfl

/-- R52: FLUSH_SCHEDULES discards every waiting schedule and answers how many there were. -/
theorem exec_flushSchedules (h : MayAnswer tag s) :
    exec (.flushSchedules tag) s =
      replied 0x0C tag .ok (be1 s.sched.queue.length) { heard s with sched := { s.sched with queue := [] } } := by
  refine request_replied h ?_
  rw [answerFlushSchedules, heard_sched]
  rfl
end

end Sys2Proof.Machine

namespace Sys2Proof
open Machine Safety

/-- Settles O29, by the two requests' equations: refused, loaded and flushed. -/
theorem schedulesAreQueuedAndFlushed : Obligations.SchedulesAreQueuedAndFlushed := by
  intro tag f s h stand d n
  have stored : storedSchedule f = d := storedSchedule_eq f
  refine ⟨exec_loadSchedule_full h, fun room => ?_, exec_flushSchedules h⟩
  have loaded := exec_loadSchedule_room (f := f) h room
  have ok_iff := (okOr_scheduleValues_eq_ok f).trans (storedSchedule_eq_unclamped_iff f)
  rw [stored] at loaded ok_iff
  exact ⟨_, _, loaded, scheduleValues_flatMap_be2 d, okOr_cases _, ok_iff⟩

end Sys2Proof
end

section
/-! Gauge control: the correction and its limits (R75 to R79), the stand 6 monitor (R80, R81), and SET_AGC (R66, R67). -/
namespace Sys2Proof.Machine
open Sys2Proof.Safety

/-! ### Clamped values -/

theorem clamp_bounds {lo hi : Int} (h : lo ≤ hi) (x : Int) : lo ≤ clamp lo hi x ∧ clamp lo hi x ≤ hi := by
  unfold clamp
  split
  · omega
  · split <;> omega

theorem clamp_eq_self {lo hi x : Int} (above : lo ≤ x) (below : x ≤ hi) : clamp lo hi x = x := by
  rw [clamp, if_neg (Int.not_lt.mpr above), if_neg (Int.not_lt.mpr below)]

theorem clamp_of_lt {lo hi x : Int} (h : x < lo) : clamp lo hi x = lo := if_pos h

theorem clamp_of_gt {lo hi x : Int} (range : lo ≤ hi) (h : hi < x) : clamp lo hi x = hi := by
  rw [clamp, if_neg (by omega), if_pos h]

/-- Clamping a value to a range moves it toward every member of the range. -/
theorem clamp_between {lo hi y : Int} (above : lo ≤ y) (below : y ≤ hi) (x : Int) :
    min y x ≤ clamp lo hi x ∧ clamp lo hi x ≤ max y x := by
  unfold clamp
  split
  · omega
  · split <;> omega

/-! ### The correction -/

/-- R77: the step limit is a clamp about the reference, and its flag says that the clamp bound. -/
theorem stepLimit_eq {stepMax : Int} (h : 0 ≤ stepMax) (ref raw : Int) :
    stepLimit ref stepMax raw =
      (clamp (ref - stepMax) (ref + stepMax) raw, decide (stepMax < raw - ref ∨ stepMax < ref - raw)) := by
  unfold stepLimit
  split
  case isTrue above => rw [clamp_of_gt (by omega) (by omega), decide_eq_true (.inl above)]
  case isFalse notAbove =>
    split
    case isTrue below => rw [clamp_of_lt (by omega), decide_eq_true (.inr below)]
    case isFalse notBelow => rw [clamp_eq_self (by omega) (by omega), decide_eq_false (not_or.mpr ⟨notAbove, notBelow⟩)]

/-- R50, R79: the items a stand works by: those of the schedule of the coil at the stand. -/
def itemsAt (s : State) (k : Stand) : Option StandSchedule :=
  ((s.coilAt (.stand k)).bind Coil.schedule).map fun d => d.stands.get k

/-- R79: a stand's gains, each from the coil's schedule or else that of an unscheduled coil. -/
theorem gains_eq (s : State) (k : Stand) :
    gains s k =
      (((itemsAt s k).map StandSchedule.q).getD 0, ((itemsAt s k).map StandSchedule.gFb).getD 192,
        ((itemsAt s k).map StandSchedule.gFf).getD 0) := by
  unfold gains itemsAt
  cases (s.coilAt (.stand k)).bind Coil.schedule <;> rfl

/-- R75, R76, step 8: the target before the two limits. -/
def rawTarget (s : State) (k : Stand) (e position : Int) : Int :=
  let m := (s.eng.get k).cfg.m
  let (q, gFb, gFf) := gains s k
  position - (deadband s.gauge.db e * (m + q) * gFb).tdiv (m * 256) - (carriedDeviation s k * q * gFf).tdiv (m * 256)

/-- R77, R78: a correction brings the raw target within STEP_MAX of the reference, then inside the window. -/
theorem correction_eq {s : State} {k : Stand} (h : 0 ≤ (s.eng.get k).cfg.stepMax) (e position : Int) :
    let c := (s.eng.get k).cfg
    let ref := (s.eng.get k).ref
    let raw := rawTarget s k e position
    let near := clamp (ref - c.stepMax) (ref + c.stepMax) raw
    correction s k e position =
      { target := clamp c.gapMin c.gapMax near
        stepLimited := decide (c.stepMax < raw - ref ∨ c.stepMax < ref - raw)
        atLimit := decide (clamp c.gapMin c.gapMax near ≠ near) } := by
  intro c ref raw near
  have limited : stepLimit ref c.stepMax raw = (near, decide (c.stepMax < raw - ref ∨ c.stepMax < ref - raw)) :=
    stepLimit_eq h ref raw
  have unfolded : correction s k e position =
      { target := clamp c.gapMin c.gapMax (stepLimit ref c.stepMax raw).1
        stepLimited := (stepLimit ref c.stepMax raw).2
        atLimit := clamp c.gapMin c.gapMax (stepLimit ref c.stepMax raw).1 != (stepLimit ref c.stepMax raw).1 } := rfl
  rw [unfolded, limited, decide_not]
  rfl

/-- R77, R78: from a reference in the window the target is in the window and within STEP_MAX of the reference. -/
theorem limited_target_near {c : StandCfg} {ref : Int} (h : 0 ≤ c.stepMax) (window : inWindow c ref) (raw : Int) :
    let target := clamp c.gapMin c.gapMax (clamp (ref - c.stepMax) (ref + c.stepMax) raw)
    inWindow c target ∧ target - ref ≤ c.stepMax ∧ ref - target ≤ c.stepMax := by
  intro target
  obtain ⟨above, below⟩ := window
  have step := clamp_bounds (lo := ref - c.stepMax) (hi := ref + c.stepMax) (by omega) raw
  have toward := clamp_between above below (clamp (ref - c.stepMax) (ref + c.stepMax) raw)
  exact ⟨clamp_bounds (Int.le_trans above below) _, by omega, by omega⟩

/-! ### The stand 6 monitor -/

/-- R80: the coil at point 7 and the coil at stand 6 are one. -/
theorem sameCoilAtExit_iff (s : State) :
    sameCoilAtExit s = true ↔ ∃ a b, s.coilAt .exit = some a ∧ s.coilAt (.stand .s6) = some b ∧ a.key = b.key := by
  unfold sameCoilAtExit
  cases s.coilAt .exit <;> cases s.coilAt (.stand .s6) <;> simp

/-- R81: the trim a completed record's deviation d_7 carries m to, before the clamp. -/
def trimFor (d : Int) (s : State) : Int := s.gauge.m + (d * s.gauge.gMon).tdiv 256

/-- R81: the monitor's trim replaced. -/
def withTrim (m : Int) (s : State) : State := { s with gauge := { s.gauge with m := m } }

/-- R80: a record with d_7 is acted on when it is not OFF_GAUGE, stand 6 is ACTIVE, and one coil is at point 7 and at
stand 6. -/
def MonitorAdmits (done : Seg) (s : State) : Prop :=
  done.offGauge = false ∧ (s.gauge.stands.get .s6).st = .active ∧ sameCoilAtExit s = true

theorem monitor_of_no_deviation {done : Seg} (h : done.dev.exit = none) (s : State) : monitor done s = s := by
  rw [monitor, h]

theorem monitor_of_not_admits {done : Seg} {s : State} (h : ¬MonitorAdmits done s) : monitor done s = s := by
  unfold monitor
  split
  · rfl
  · exact if_neg (by simpa [MonitorAdmits] using h)

/-- R81: an admitted record trims m, clamped to ±2,000, and edges MONITOR_LIMIT when the clamp binds. -/
theorem monitor_of_admits {done : Seg} {s : State} {d : Int} (dev : done.dev.exit = some d) (h : MonitorAdmits done s) :
    monitor done s =
      if clamp (-2000) 2000 (trimFor d s) = trimFor d s then withTrim (clamp (-2000) 2000 (trimFor d s)) s
      else edge .monitorLimit (withTrim (clamp (-2000) 2000 (trimFor d s)) s) := by
  obtain ⟨onGauge, active, same⟩ := h
  simp only [monitor, dev, onGauge, active, same]
  rfl

/-! ### SET_AGC -/

theorem agcMode?_eq_none {b : Byte} (h : 2 < b.toNat) : agcMode? b = none := by
  unfold agcMode?
  split
  case h_1 zero => omega
  case h_2 one => omega
  case h_3 two => omega
  case h_4 => rfl

theorem setAgc_setAgc (k : Stand) (a b : AgcStand) (s : State) : setAgc k b (setAgc k a s) = setAgc k b s := by
  simp [setAgc]

theorem deriveAgc_setAgc (k : Stand) (a : AgcStand) (s : State) :
    deriveAgc k (setAgc k a s) = setAgc k { a with st := agcStateOf (setAgc k a s) k } s := by
  rw [deriveAgc, setAgc_setAgc, setAgc_gauge, PerStand.get_set_self]

/-- R71: a stand's AGC state is not derived from the state held before. -/
theorem agcStateOf_deriveAgc (k : Stand) (s : State) : agcStateOf (deriveAgc k s) k = agcStateOf s k := by
  apply agcStateOf_congr <;> simp [deriveAgc]

/-- R67, R70: clearing a stand's reference, with the trim cleared at stand 6. -/
theorem clearReference_eq (k : Stand) (s : State) :
    clearReference k s =
      setAgc k { s.gauge.stands.get k with href := none, stepLimited := false, atLimit := false }
        (withTrim (if k = .s6 then 0 else s.gauge.m) s) := by
  unfold clearReference
  split <;> rfl

/-- R67: the present mode changes nothing. -/
theorem changeMode_same {k : Stand} {mode : AgcMode} {s : State} (h : (s.gauge.stands.get k).mode = mode) :
    changeMode k mode s = s := if_pos h

/-- R67, R72: another mode is taken with the reference and flags cleared and the AGC state derived. -/
theorem changeMode_other {k : Stand} {mode : AgcMode} {s : State} (h : (s.gauge.stands.get k).mode ≠ mode) :
    changeMode k mode s =
      setAgc k
        { s.gauge.stands.get k with
          mode := mode, href := none, stepLimited := false, atLimit := false, st := agcStateOf (changeMode k mode s) k }
        (withTrim (if k = .s6 then 0 else s.gauge.m) s) := by
  let cleared : AgcStand :=
    { s.gauge.stands.get k with mode := mode, href := none, stepLimited := false, atLimit := false }
  let trimmed := withTrim (if k = .s6 then 0 else s.gauge.m) s
  have changed : changeMode k mode s = deriveAgc k (setAgc k cleared trimmed) := by
    rw [changeMode, if_neg h, clearReference_eq]
    dsimp only
    rw [setAgc_setAgc, setAgc_gauge, PerStand.get_set_self]
  calc changeMode k mode s
      = setAgc k { cleared with st := agcStateOf (setAgc k cleared trimmed) k } trimmed := by
        rw [changed, deriveAgc_setAgc]
    _ = setAgc k { cleared with st := agcStateOf (changeMode k mode s) k } trimmed := by
        rw [changed, agcStateOf_deriveAgc]

/-- R66: the common settings of a SET_AGC as they are stored. -/
def withAgcSettings (f : AgcFields) (s : State) : State :=
  { s with gauge := { s.gauge with
      db := (min f.db.toNat 100 : Nat), gMon := (min f.gMon.toNat 256 : Nat), lockonSeg := clampNat 1 8 f.lockonSeg.toNat } }

@[simp] theorem withAgcSettings_stands (f : AgcFields) (s : State) :
    (withAgcSettings f s).gauge.stands = s.gauge.stands := rfl
@[simp] theorem withAgcSettings_m (f : AgcFields) (s : State) : (withAgcSettings f s).gauge.m = s.gauge.m := rfl

/-- R66: every common setting is stored as it was sent. -/
def agcSettingsKept (f : AgcFields) : Bool :=
  min f.db.toNat 100 = f.db.toNat ∧ min f.gMon.toNat 256 = f.gMon.toNat ∧
    clampNat 1 8 f.lockonSeg.toNat = f.lockonSeg.toNat

/-- R66: SET_AGC's reply carries the stand, its mode and AGC state, and the common settings as stored. -/
def agcContent (k : Stand) (f : AgcFields) (mode : AgcMode) (s : State) : List Byte :=
  [f.stand, mode.code, (s.gauge.stands.get k).st.code] ++ be1 (min f.db.toNat 100 : Nat) ++
    be2 (min f.gMon.toNat 256 : Nat) ++ be1 (clampNat 1 8 f.lockonSeg.toNat : Nat)

theorem clamp_zero_uint_natCast {w : Nat} (hi : Nat) (x : BitVec w) : clamp 0 hi (uint x) = (min x.toNat hi : Nat) := by
  rw [clamp_zero_uint]
  omega

/-- R66: a setting differs from the one sent exactly where not all are kept. -/
theorem agcSettings_differ (f : AgcFields) :
    (((min f.db.toNat 100 : Nat) : Int) != uint f.db || ((min f.gMon.toNat 256 : Nat) : Int) != uint f.gMon ||
      clampNat 1 8 f.lockonSeg.toNat != f.lockonSeg.toNat) = !agcSettingsKept f := by
  rw [Bool.eq_iff_iff]
  simp only [agcSettingsKept, uint, Bool.or_eq_true, bne_iff_ne, Bool.not_eq_true', decide_eq_false_iff_not, ne_eq,
    Int.ofNat_inj, Classical.not_and_iff_not_or_not, or_assoc]

theorem okOr_not (kept : Bool) : okOr (!kept) = if kept then .ok else .adjusted := by cases kept <;> rfl

/-- The byte that named a stand is the stand's number. -/
theorem be1_num_of_ofNat? {b : Byte} {k : Stand} (h : Stand.ofNat? b.toNat = some k) : be1 k.num = [b] := by
  rw [be1, ← Stand.ofNat?_eq_some h, BitVec.ofInt_natCast, BitVec.ofNat_toNat, BitVec.setWidth_eq]

section
variable {tag : Byte} {f : AgcFields} {s : State} {k : Stand} {mode : AgcMode}

/-- R66: a stand or mode that is none is refused. -/
theorem answerSetAgc_range (h : Stand.ofNat? f.stand.toNat = none ∨ agcMode? f.mode = none) (s : State) :
    answerSetAgc f s = refuse .range s := by
  unfold answerSetAgc
  split
  case h_1 stand mode => simp [stand, mode] at h
  case h_2 => rfl

/-- R66: under the lock only OFF is accepted. -/
theorem answerSetAgc_locked (stand : Stand.ofNat? f.stand.toNat = some k) (named : agcMode? f.mode = some mode)
    (locked : s.ilk.lockOpen = false) (on : mode ≠ .off) : answerSetAgc f s = refuse .locked s := by
  simp [answerSetAgc, stand, named, locked, on]

/-- R66, R67: an accepted SET_AGC stores the common settings, then changes the mode. -/
theorem answerSetAgc_accepted (stand : Stand.ofNat? f.stand.toNat = some k) (named : agcMode? f.mode = some mode)
    (allowed : s.ilk.lockOpen = true ∨ mode = .off) :
    answerSetAgc f s =
      { state := changeMode k mode (withAgcSettings f s)
        status := if agcSettingsKept f then .ok else .adjusted
        content := agcContent k f mode (changeMode k mode (withAgcSettings f s)) } := by
  have unlocked : ¬((!s.ilk.lockOpen) = true ∧ mode ≠ .off) := by
    intro ⟨locked, on⟩
    rcases allowed with isOpen | off
    · rw [isOpen] at locked
      exact absurd locked (by decide)
    · exact on off
  have db : clamp 0 100 (uint f.db) = (min f.db.toNat 100 : Nat) := clamp_zero_uint_natCast 100 f.db
  have gMon : clamp 0 256 (uint f.gMon) = (min f.gMon.toNat 256 : Nat) := clamp_zero_uint_natCast 256 f.gMon
  simp only [answerSetAgc, stand, named]
  rw [if_neg unlocked, db, gMon, agcSettings_differ, okOr_not, be1_num_of_ofNat? stand]
  rfl

theorem exec_setAgc_range (h : MayAnswer tag s) (bad : Stand.ofNat? f.stand.toNat = none ∨ agcMode? f.mode = none) :
    exec (.setAgc tag f) s = replied 0x07 tag .range [] (heard s) :=
  request_replied h (answerSetAgc_range bad _)

theorem exec_setAgc_locked (h : MayAnswer tag s) (stand : Stand.ofNat? f.stand.toNat = some k)
    (named : agcMode? f.mode = some mode) (locked : s.ilk.lockOpen = false) (on : mode ≠ .off) :
    exec (.setAgc tag f) s = replied 0x07 tag .locked [] (heard s) :=
  request_replied h (answerSetAgc_locked stand named (by rwa [heard_ilk]) on)

theorem exec_setAgc_accepted (h : MayAnswer tag s) (stand : Stand.ofNat? f.stand.toNat = some k)
    (named : agcMode? f.mode = some mode) (allowed : s.ilk.lockOpen = true ∨ mode = .off) :
    let t := changeMode k mode (withAgcSettings f (heard s))
    exec (.setAgc tag f) s =
      replied 0x07 tag (if agcSettingsKept f then .ok else .adjusted) (agcContent k f mode t) t :=
  request_replied h (answerSetAgc_accepted stand named (by rwa [heard_ilk]))

end

end Sys2Proof.Machine

namespace Sys2Proof
open Machine Safety

/-- Settles O33: the correction as two clamps, the second of which moves the target toward the reference. -/
theorem correctionFollowsSteps : Obligations.CorrectionFollowsSteps := by
  intro k e position s c ref sch q gFb gFf dH eEff raw near r
  have raw_eq : rawTarget s k e position = raw := by
    rw [rawTarget, gains_eq]
    rfl
  refine ⟨rfl, fun nonneg => ?_⟩
  have r_eq : r = { target := clamp c.gapMin c.gapMax near
                    stepLimited := decide (c.stepMax < raw - ref ∨ c.stepMax < ref - raw)
                    atLimit := decide (clamp c.gapMin c.gapMax near ≠ near) } := by
    have corrected := correction_eq nonneg e position
    rwa [raw_eq] at corrected
  rw [r_eq]
  exact ⟨rfl, rfl, rfl, fun window => limited_target_near nonneg window raw⟩

/-- Settles O36: a record that is not admitted is ignored, and the trim of one that is falls in one of three ranges. -/
theorem monitorTrimsWithinLimits : Obligations.MonitorTrimsWithinLimits := by
  refine fun done s => ⟨?_, fun d a b dev onGauge active atExit atSix same => ?_⟩
  · rintro (noDev | offGauge | idle | apart)
    · exact monitor_of_no_deviation noDev s
    · exact monitor_of_not_admits fun ⟨onGauge, _, _⟩ => by simp [offGauge] at onGauge
    · exact monitor_of_not_admits fun ⟨_, active, _⟩ => idle active
    · refine monitor_of_not_admits fun ⟨_, _, same⟩ => ?_
      obtain ⟨a, b, atExit, atSix, key⟩ := (sameCoilAtExit_iff s).mp same
      exact apart a b atExit atSix key
  · intro m trimmed
    have admits : MonitorAdmits done s := ⟨onGauge, active, (sameCoilAtExit_iff s).mpr ⟨a, b, atExit, atSix, same⟩⟩
    have result : monitor done s =
        if clamp (-2000) 2000 m = m then trimmed (clamp (-2000) 2000 m)
        else edge .monitorLimit (trimmed (clamp (-2000) 2000 m)) :=
      monitor_of_admits dev admits
    refine ⟨fun above below => ?_, fun beyond => ?_, fun under => ?_⟩
    · rw [result, clamp_eq_self above below, if_pos rfl]
    · rw [result, clamp_of_gt (by decide) beyond, if_neg (Int.ne_of_lt beyond)]
    · rw [result, clamp_of_lt under, if_neg (Int.ne_of_gt under)]

/-- Settles O37, by the request's three equations and the two of a mode change. -/
theorem setAgcChangesMode : Obligations.SetAgcChangesMode := by
  intro tag f s h heardState
  refine ⟨fun bad => exec_setAgc_range h (bad.imp_right agcMode?_eq_none), fun k mode stand named =>
    ⟨exec_setAgc_locked h stand named, fun allowed => ?_⟩⟩
  have stands : (withAgcSettings f (heard s)).gauge.stands = s.gauge.stands := by simp
  have trim : (withAgcSettings f (heard s)).gauge.m = s.gauge.m := by simp
  refine ⟨_, exec_setAgc_accepted h stand named allowed, fun present => ?_, fun other => ?_⟩
  · exact changeMode_same (by rwa [stands])
  · have changed := changeMode_other (k := k) (mode := mode) (s := withAgcSettings f (heard s)) (by rwa [stands])
    rwa [stands, trim] at changed

end Sys2Proof
end

section
/-! Gap moves: setup moves (R60, R61, R95), FEEDBACK corrections (R96), and the host's MOVE, HOLD_MOVE, RESUME_MOVE and
CANCEL_MOVE (R94, R97 to R99). -/
namespace Sys2Proof.Machine
open Sys2Proof.Safety

/-! ### What a good frame leaves for a request's owner -/

section
variable (s : State)
@[simp] theorem heard_blocked (k : Stand) : (heard s).blocked k = s.blocked k := blocked_congr (by simp) k
@[simp] theorem heard_retracting (k : Stand) : (heard s).retracting k = s.retracting k := retracting_congr (by simp) k
@[simp] theorem heard_measured (c : Channel) : (heard s).measured c = s.measured c := measured_congr (by simp) c
end

/-! ### Setup moves -/

/-- R60: the setup move for a set gap, its target clamped into the window. -/
def setupMove (c : StandCfg) (gap : Int) : Move where
  origin := .setup
  target := clamp c.gapMin c.gapMax gap
  step := c.setRate
  tag := none
  clamped := decide (clamp c.gapMin c.gapMax gap ≠ gap)

/-- R95: a setup move is refused by the action set, then by a full queue, and otherwise taken. -/
theorem issueSetup_eq (k : Stand) (gap : Int) (s : State) :
    issueSetup k gap s =
      if s.retracting k then reportMove k (setupMove (s.eng.get k).cfg gap) .refusedTrip s
      else if 4 ≤ (s.eng.get k).pending.length then reportMove k (setupMove (s.eng.get k).cfg gap) .queueFull s
      else takeMove k (setupMove (s.eng.get k).cfg gap) s := by
  rw [setupMove, decide_not]
  rfl

/-! ### FEEDBACK corrections -/

/-- R96: the move a correction starts at an idle engine. -/
def feedbackMove (c : StandCfg) (target : Int) : Move where
  origin := .feedback
  target := target
  step := c.agcRate
  tag := none
  clamped := false

section
variable {k : Stand} {s : State} {x : Int}

theorem takeFeedback_retracted (h : (s.eng.get k).retracted = true) : takeFeedback k x s = s := if_pos h

theorem takeFeedback_idle (out : (s.eng.get k).retracted = false) (idle : (s.eng.get k).act = .idle) :
    takeFeedback k x s =
      if (s.eng.get k).pending = [] ∧ s.blocked k = false then startMove k (feedbackMove (s.eng.get k).cfg x) s else s := by
  simp only [takeFeedback, out, idle, Bool.and_eq_true, List.isEmpty_iff, Bool.not_eq_true']
  rfl

/-- R96: a correction that meets a ramping or settling move combines with it if that is a FEEDBACK move. -/
theorem takeFeedback_moving {a : Active} (out : (s.eng.get k).retracted = false)
    (moving : (s.eng.get k).act = .ramping a ∨ (s.eng.get k).act = .settling a) :
    takeFeedback k x s =
      if a.move.origin = .feedback then startMove k { a.move with target := x } s else s := by
  rcases moving with act | act <;> simp only [takeFeedback, out, act] <;> rfl

theorem takeFeedback_held {a : Active} {p : Phase} (act : (s.eng.get k).act = .held a p) : takeFeedback k x s = s := by
  simp only [takeFeedback, act, ite_self]

/-- R89: where a move starts, its engine is the only thing that changes. -/
theorem started_of_eq_startMove {m : Move} {t : State} (step : 0 < m.step) (h : t = startMove k m s) :
    ∃ e, Started (s.eng.get k) m e ∧ t = setEngine k e s :=
  ⟨_, startMove_started k m s step, h.trans (startMove_eq k m s)⟩
end

/-! ### MOVE -/

theorem okOr_bne (a b : Nat) : okOr (a != b) = if a = b then .ok else .adjusted := by
  by_cases same : a = b
  · rw [if_pos same, okOr_eq_ok, same, bne_self_eq_false]
  · rw [if_neg same, okOr, bne_iff_ne.mpr same, if_pos rfl]

/-- R94: a target field lies outside the window or inside it. -/
theorem uint_outside_iff (c : StandCfg) (x : Word) :
    uint x < c.gapMin ∨ c.gapMax < uint x ↔ ¬inWindow c x.toNat := by
  rw [inWindow, uint]
  omega

/-- R93: a move starts at once where the stand is free, has nothing waiting, and is idle or moves by FEEDBACK only. -/
def startsNow (e : Engine) (blocked : Bool) : Bool :=
  (e.act.isIdle || e.act.isOf .feedback) && e.pending.isEmpty && !blocked

theorem makeWay_ilk (k : Stand) (s : State) : (makeWay k s).ilk = s.ilk := by
  unfold makeWay
  dsimp only
  split <;> rfl

theorem makeWay_pending (k : Stand) (s : State) :
    ((makeWay k s).eng.get k).pending = (s.eng.get k).pending := by
  unfold makeWay
  dsimp only
  split <;> simp [dropActive, clearPosErr]

/-- R93, step 2: the engine is idle once a FEEDBACK move has been dropped. -/
theorem makeWay_isIdle (k : Stand) (s : State) :
    ((makeWay k s).eng.get k).act.isIdle = ((s.eng.get k).act.isIdle || (s.eng.get k).act.isOf .feedback) := by
  unfold makeWay
  dsimp only
  split
  case isTrue feedback => simp_all [dropActive, clearPosErr, Activity.isIdle]
  case isFalse other => simp_all

/-- R93: whether a taken move starts at once, said of the engine as it stands before. -/
theorem startsAtOnce_makeWay (k : Stand) (s : State) :
    startsAtOnce k (makeWay k s) = startsNow (s.eng.get k) (s.blocked k) := by
  have blocked : (makeWay k s).blocked k = s.blocked k := blocked_congr (by rw [makeWay_ilk]) k
  rw [startsAtOnce, startsNow, makeWay_isIdle, makeWay_pending, blocked]

/-- R94: MOVE's reply says whether the move waits and, if it does, its place in the queue. -/
theorem placeBytes_eq (starts : Bool) (n : Nat) :
    [bit !starts] ++ optional 1 (fun n : Nat => be1 n) (if !starts then some (n + 1) else none) =
      if starts then [0, 0, 0] else [1, 1] ++ be1 (n + 1 : Nat) := by
  cases starts <;> rfl

section
variable {tag stand : Byte} {target rate : Word} {s : State} {k : Stand} {x : Tag}

theorem answerMove_noStand (noStand : Stand.ofNat? stand.toNat = none) (s : State) :
    answerMove tag stand target rate s = refuse .range s := by
  simp only [answerMove, noStand]

section
variable (atStand : Stand.ofNat? stand.toNat = some k) (named : Tag.ofNat? tag.toNat = some x)
include atStand named

theorem answerMove_outside (outside : ¬inWindow (s.eng.get k).cfg target.toNat) :
    answerMove tag stand target rate s = refuse .range s := by
  simp only [answerMove, atStand, named]
  exact if_pos ((uint_outside_iff _ _).mpr outside)

variable (inside : inWindow (s.eng.get k).cfg target.toNat)
include inside

theorem answerMove_locked (locked : s.ilk.lockOpen = false) :
    answerMove tag stand target rate s = refuse .locked s := by
  simp [answerMove, atStand, named, uint_outside_iff, inside, locked]

variable (isOpen : s.ilk.lockOpen = true)
include isOpen

theorem answerMove_tripped (retracting : s.retracting k = true) :
    answerMove tag stand target rate s = refuse .tripped s := by
  simp [answerMove, atStand, named, uint_outside_iff, inside, isOpen, retracting]

variable (untripped : s.retracting k = false)
include untripped

theorem answerMove_tagBusy (busy : s.slots.get x ≠ none) :
    answerMove tag stand target rate s = refuse .tagBusy s := by
  simp [answerMove, atStand, named, uint_outside_iff, inside, isOpen, untripped, Option.isSome_iff_ne_none, busy]

variable (free : s.slots.get x = none)
include free

theorem answerMove_full (full : 4 ≤ (s.eng.get k).pending.length) :
    answerMove tag stand target rate s = refuse .queueFull s := by
  simp [answerMove, atStand, named, uint_outside_iff, inside, isOpen, untripped, free, Config.pendingSize, full]

/-- R94: a request that passes every check holds the tag's slot, and its move is taken. -/
theorem answerMove_accepted (room : (s.eng.get k).pending.length < 4) :
    answerMove tag stand target rate s =
      { state := takeMove k (linkMove x target rate) { s with slots := s.slots.set x (some k) }
        status := if clampNat 1 500 rate.toNat = rate.toNat then .ok else .adjusted
        content := [stand] ++ be2 target.toNat ++ be2 (clampNat 1 500 rate.toNat) ++
          if startsNow (s.eng.get k) (s.blocked k) then [0, 0, 0]
          else [1, 1] ++ be1 ((s.eng.get k).pending.length + 1 : Nat) } := by
  have starts : startsAtOnce k (makeWay k (setSlots (s.slots.set x (some k)) s)) =
      startsNow (s.eng.get k) (s.blocked k) := startsAtOnce_makeWay k _
  have place := placeBytes_eq (startsNow (s.eng.get k) (s.blocked k)) (s.eng.get k).pending.length
  simp only [answerMove, atStand, named, uint_outside_iff, inside, isOpen, untripped, free, Config.pendingSize,
    Nat.not_le.mpr room, starts, be1_num_of_ofNat? atStand, okOr_bne, List.append_assoc, ← place]
  rfl
end
end

/-! ### HOLD_MOVE and RESUME_MOVE -/

@[simp] theorem Activity.isOf_ramping (a : Active) (o : Origin) : (ramping a).isOf o = (a.move.origin == o) := rfl
@[simp] theorem Activity.isOf_settling (a : Active) (o : Origin) : (settling a).isOf o = (a.move.origin == o) := rfl

section
variable {stand : Byte} {s : State} {k : Stand} {a : Active}

theorem answerHoldMove_noStand (noStand : Stand.ofNat? stand.toNat = none) (s : State) :
    answerHoldMove stand s = refuse .range s := by
  simp only [answerHoldMove, noStand]

theorem answerResumeMove_noStand (noStand : Stand.ofNat? stand.toNat = none) (s : State) :
    answerResumeMove stand s = refuse .range s := by
  simp only [answerResumeMove, noStand]

section
variable (atStand : Stand.ofNat? stand.toNat = some k)
include atStand

theorem answerHoldMove_ramping (act : (s.eng.get k).act = .ramping a) (origin : a.move.origin ≠ .retract) :
    answerHoldMove stand s =
      { state := setEngine k { s.eng.get k with act := .held a .ramping, settleLeft := none } s
        status := .ok
        content := heldMoveBytes a.move } := by
  simp [answerHoldMove, holdActive, atStand, act, origin]

theorem answerHoldMove_settling (act : (s.eng.get k).act = .settling a) (origin : a.move.origin ≠ .retract) :
    answerHoldMove stand s =
      { state := setEngine k { s.eng.get k with act := .held a .settling, settleLeft := none } s
        status := .ok
        content := heldMoveBytes a.move } := by
  simp [answerHoldMove, holdActive, atStand, act, origin]

/-- R97: there is nothing to hold at an engine that is IDLE or HELD, or whose active move is a RETRACT move. -/
theorem answerHoldMove_busy
    (h : (s.eng.get k).act = .idle ∨ (∃ a p, (s.eng.get k).act = .held a p) ∨ (s.eng.get k).act.isOf .retract = true) :
    answerHoldMove stand s = refuse .busy s := by
  simp only [answerHoldMove, atStand]
  cases act : (s.eng.get k).act with
  | idle => rfl
  | held a p => rfl
  | ramping a | settling a =>
    have origin : a.move.origin = .retract := by simpa [act] using h
    exact if_pos origin

theorem answerResumeMove_locked (locked : s.ilk.lockOpen = false) : answerResumeMove stand s = refuse .locked s := by
  simp [answerResumeMove, atStand, locked]

variable (isOpen : s.ilk.lockOpen = true)
include isOpen

theorem answerResumeMove_tripped (blocked : s.blocked k = true) : answerResumeMove stand s = refuse .tripped s := by
  simp [answerResumeMove, atStand, isOpen, blocked]

variable (free : s.blocked k = false)
include free

theorem answerResumeMove_busy (h : ∀ a p, (s.eng.get k).act ≠ .held a p) :
    answerResumeMove stand s = refuse .busy s := by
  simp only [answerResumeMove, atStand, isOpen, free]
  cases act : (s.eng.get k).act with
  | held a p => exact absurd act (h a p)
  | idle | ramping _ | settling _ => rfl

theorem answerResumeMove_ramping (act : (s.eng.get k).act = .held a .ramping) :
    answerResumeMove stand s =
      { state := setEngine k { s.eng.get k with act := .ramping a } s, status := .ok, content := heldMoveBytes a.move } := by
  simp [answerResumeMove, resumeActive, atStand, isOpen, free, act]

theorem answerResumeMove_settling (act : (s.eng.get k).act = .held a .settling) :
    answerResumeMove stand s =
      { state := setEngine k { s.eng.get k with act := .settling a, settleLeft := some (s.eng.get k).cfg.settleTime } s
        status := .ok
        content := heldMoveBytes a.move } := by
  simp [answerResumeMove, resumeActive, atStand, isOpen, free, act]
end
end

/-! ### CANCEL_MOVE -/

section
variable {ahead behind : List Move} {m : Move} {x : Tag}

/-- R88: the move with a tag is found in a queue where no other has it. -/
theorem find?_tag (tag : m.tag = some x) (only : ∀ p ∈ ahead ++ behind, p.tag ≠ some x) :
    (ahead ++ m :: behind).find? (fun p => p.tag == some x) = some m := by
  have before : ahead.find? (fun p => p.tag == some x) = none := by
    rw [List.find?_eq_none]
    exact fun p mem => by simpa using only p (List.mem_append_left _ mem)
  rw [List.find?_append, before, Option.none_or, List.find?_cons_of_pos (by simp [tag])]

/-- R99: taking out the move with a tag keeps the rest in order. -/
theorem filter_otherTags (tag : m.tag = some x) (only : ∀ p ∈ ahead ++ behind, p.tag ≠ some x) :
    (ahead ++ m :: behind).filter (fun p => p.tag != some x) = ahead ++ behind := by
  have rest : (ahead ++ behind).filter (fun p => p.tag != some x) = ahead ++ behind := by
    rw [List.filter_eq_self]
    exact fun p mem => by simpa using only p mem
  rw [List.filter_append] at rest ⊢
  rwa [List.filter_cons_of_neg (by simp [tag])]
end

section
variable {named : Byte} {s : State} {k : Stand} {x : Tag}

theorem answerCancelMove_noTag (noTag : Tag.ofNat? named.toNat = none) (s : State) :
    answerCancelMove named s = refuse .range s := by
  simp only [answerCancelMove, noTag]

variable (tag : Tag.ofNat? named.toNat = some x)
include tag

theorem answerCancelMove_free (free : s.slots.get x = none) : answerCancelMove named s = refuse .notFound s := by
  simp only [answerCancelMove, tag, free]

variable (slot : s.slots.get x = some k)
include slot

/-- R99: the active move with the tag ends with CANCELLED. -/
theorem answerCancelMove_active {a : Active} (active : (s.eng.get k).act.active? = some a) (same : a.move.tag = some x) :
    answerCancelMove named s =
      { state := deriveAgc k (finishMove k a.move .cancelled s), status := .ok, content := be1 k.num ++ [0] } := by
  have found : (s.eng.get k).act.active?.filter (fun a => a.move.tag == some x) = some a := by
    simp [active, same]
  simp only [answerCancelMove, tag, slot, found]
  rfl

/-- R99: a pending move with the tag leaves the queue, its slot is freed, and it is reported. -/
theorem answerCancelMove_pending {ahead behind : List Move} {m : Move}
    (other : ∀ a, (s.eng.get k).act.active? = some a → a.move.tag ≠ some x) (same : m.tag = some x)
    (queue : (s.eng.get k).pending = ahead ++ m :: behind) (only : ∀ p ∈ ahead ++ behind, p.tag ≠ some x) :
    answerCancelMove named s =
      { state := deriveAgc k (report
          (.moveDone k (some x) m.origin .cancelled m.clamped (s.eng.get k).ref (s.measured (.position k)))
          { s with
            slots := s.slots.set x none
            eng := s.eng.set k { s.eng.get k with pending := ahead ++ behind } })
        status := .ok
        content := be1 k.num ++ [1] } := by
  have notActive : (s.eng.get k).act.active?.filter (fun a => a.move.tag == some x) = none := by
    rw [Option.filter_eq_none_iff]
    exact fun a active => by simpa using other a active
  have cancelled : cancelPending k m s = deriveAgc k (report
      (.moveDone k (some x) m.origin .cancelled m.clamped (s.eng.get k).ref (s.measured (.position k)))
      { s with
        slots := s.slots.set x none
        eng := s.eng.set k { s.eng.get k with pending := ahead ++ behind } }) := by
    simp only [cancelPending, queue, filter_otherTags same only, same, freeSlot, reportMove, setSlots, setEngine,
      PerStand.get_set_self]
    rfl
  simp only [answerCancelMove, tag, slot, notActive, queue, find?_tag same only, cancelled]
  rfl
end

end Sys2Proof.Machine

namespace Sys2Proof
open Machine Safety

/-- Settles O30, by the one equation of a setup move's issue. -/
theorem setupMovesAreTakenOrRefused : Obligations.SetupMovesAreTakenOrRefused := by
  intro k gap s e target m refused
  have issued := issueSetup_eq k gap s
  refine ⟨fun retracting => ?_, fun untripped full => ?_, fun untripped room => ?_⟩
  · rw [issued, if_pos retracting]
    rfl
  · rw [issued, untripped, if_neg Bool.false_ne_true, if_pos full]
    rfl
  · rw [issued, untripped, if_neg Bool.false_ne_true, if_neg (Nat.not_le.mpr room)]
    rfl

/-- Settles O34, by the engine's activity. -/
theorem feedbackStartsCombinesOrIsDiscarded : Obligations.FeedbackStartsCombinesOrIsDiscarded := by
  intro k x s e fresh starts
  refine ⟨takeFeedback_retracted, fun out idle => ⟨fun rate empty free => ?_, fun kept => ?_⟩,
    fun a out moving => ⟨fun step feedback => ?_, fun other => ?_⟩, fun a p => takeFeedback_held⟩
  · have begun : takeFeedback k x s = startMove k fresh s := by
      rw [takeFeedback_idle out idle, if_pos ⟨empty, free⟩]
      rfl
    exact started_of_eq_startMove rate begun
  · rw [takeFeedback_idle out idle, if_neg]
    rintro ⟨empty, free⟩
    exact kept.elim (· empty) fun blocked => by simp [free] at blocked
  · have combined : takeFeedback k x s = startMove k { a.move with target := x } s := by
      rw [takeFeedback_moving out moving, if_pos feedback]
    exact started_of_eq_startMove step combined
  · rw [takeFeedback_moving out moving, if_neg other]

/-- Settles O41: each of MOVE's answers, given the state its good frame leaves. -/
theorem moveIsCheckedThenTaken : Obligations.MoveIsCheckedThenTaken := by
  intro tag stand target rate s h heardState
  refine ⟨fun noStand => request_replied h (answerMove_noStand noStand _), fun k x atStand named => ?_⟩
  intro e refused
  have engine : (heard s).eng.get k = e := by rw [heard_eng]
  refine ⟨fun outside => request_replied h (answerMove_outside atStand named (by rwa [engine])), fun inside => ?_⟩
  have inside : inWindow ((heard s).eng.get k).cfg target.toNat := by rwa [engine]
  rw [← heard_ilk, ← heard_retracting, ← heard_slots, ← engine]
  refine ⟨fun locked => request_replied h (answerMove_locked atStand named inside locked),
    fun isOpen retracting => request_replied h (answerMove_tripped atStand named inside isOpen retracting),
    fun isOpen untripped busy => request_replied h (answerMove_tagBusy atStand named inside isOpen untripped busy),
    fun isOpen untripped free full => request_replied h (answerMove_full atStand named inside isOpen untripped free full),
    fun isOpen untripped free room => ?_⟩
  have accepted := answerMove_accepted (rate := rate) atStand named inside isOpen untripped free room
  rw [heard_blocked] at accepted
  exact request_replied h accepted

/-- Settles O42: each of the three requests' answers, given the state its good frame leaves. -/
theorem hostHoldsResumesCancels : Obligations.HostHoldsResumesCancels := by
  intro tag stand s h heardState holds resumes cancels named
  have bytes : ∀ m, heldMoveBytes m = named m := by
    rintro ⟨_, _, _, _ | _, _⟩ <;> rfl
  refine ⟨fun noStand => ⟨request_replied h (answerHoldMove_noStand noStand _),
    request_replied h (answerResumeMove_noStand noStand _)⟩, fun k atStand => ?_, fun above => ?_, fun x cancelled => ?_⟩
  · intro e
    have engine : (heard s).eng.get k = e := by rw [heard_eng]
    rw [← heard_ilk, ← heard_blocked, ← engine]
    simp only [← bytes]
    exact ⟨fun a act origin => request_replied h (answerHoldMove_ramping atStand act origin),
      fun a act origin => request_replied h (answerHoldMove_settling atStand act origin),
      fun still => request_replied h (answerHoldMove_busy atStand still),
      fun locked => request_replied h (answerResumeMove_locked atStand locked),
      fun isOpen blocked => request_replied h (answerResumeMove_tripped atStand isOpen blocked),
      fun isOpen free other => request_replied h (answerResumeMove_busy atStand isOpen free other),
      fun a isOpen free act => request_replied h (answerResumeMove_ramping atStand isOpen free act),
      fun a isOpen free act => request_replied h (answerResumeMove_settling atStand isOpen free act)⟩
  · have noTag : Tag.ofNat? stand.toNat = none := by
      rw [← Option.not_isSome_iff_eq_none, Tag.ofNat?_isSome]
      omega
    exact request_replied h (answerCancelMove_noTag noTag _)
  · rw [← heard_slots]
    refine ⟨fun free => request_replied h (answerCancelMove_free cancelled free), fun k slot => ?_⟩
    rw [← heard_eng, ← heard_measured]
    exact ⟨fun a active same => request_replied h (answerCancelMove_active cancelled slot active same),
      fun ahead m behind other same queue only =>
        request_replied h (answerCancelMove_pending cancelled slot other same queue only)⟩

end Sys2Proof
end

section
/-! The trip controller's stack: TAKE_TRIP's selection and the take (R116, R118), and END_TRIP, which raises a source again or
releases its action (R119 to R121). -/
namespace Sys2Proof

theorem Source.num_inj {x y : Source} : x.num = y.num ↔ x = y :=
  ⟨fun h => Option.some.inj (by rw [← Source.ofNat?_num x, h, Source.ofNat?_num]), congrArg _⟩

theorem Source.ofNat?_eq_none {n : Nat} (h : 23 < n) : Source.ofNat? n = none := by
  rw [← Option.not_isSome_iff_eq_none, Source.ofNat?_isSome]
  omega

end Sys2Proof

namespace Sys2Proof.Machine
open Sys2Proof.Safety

/-! ### The most urgent source -/

/-- R116, step 1: a source that is PENDING and eligible. -/
def Offered (s : State) (x : Source) : Prop :=
  (s.trips.src.get x).st = .pending ∧ (s.trips.src.get x).priority < s.trips.ceiling

/-- R116, step 1: `x` comes no later than `y` in the order of priority number and then source number. -/
def NoLater (s : State) (x y : Source) : Prop :=
  (s.trips.src.get x).priority < (s.trips.src.get y).priority ∨
    ((s.trips.src.get x).priority = (s.trips.src.get y).priority ∧ x.num ≤ y.num)

/-- A member of a list of sources that comes no later than any other. -/
def IsMostUrgent (s : State) (x : Source) (l : List Source) : Prop := x ∈ l ∧ ∀ y ∈ l, NoLater s x y

section
variable {s : State} {x y z : Source}

theorem NoLater.refl (s : State) (x : Source) : NoLater s x x := .inr ⟨rfl, Nat.le_refl _⟩

theorem NoLater.trans (first : NoLater s x y) (second : NoLater s y z) : NoLater s x z := by
  unfold NoLater at *
  omega

theorem NoLater.antisymm (there : NoLater s x y) (back : NoLater s y x) : x = y := by
  rw [← Source.num_inj]
  unfold NoLater at *
  omega

theorem IsMostUrgent.unique {l : List Source} (hx : IsMostUrgent s x l) (hy : IsMostUrgent s y l) : x = y :=
  (hx.2 y hy.1).antisymm (hy.2 x hx.1)

end

/-- R116, step 1: of sources in rising order of number, the fold keeps the most urgent of those it has met. -/
theorem foldl_moreUrgent_some (s : State) (b : Source) (l : List Source)
    (rising : (b :: l).Pairwise fun x y => x.num < y.num) :
    ∃ x, l.foldl (moreUrgent s) (some b) = some x ∧ IsMostUrgent s x (b :: l) := by
  induction l generalizing b with
  | nil => exact ⟨b, rfl, List.mem_singleton_self b, by simpa using NoLater.refl s b⟩
  | cons c l ih =>
    obtain ⟨before, rest⟩ := List.pairwise_cons.mp rising
    obtain ⟨beforeC, beforeL⟩ := List.forall_mem_cons.mp before
    rw [List.foldl_cons, moreUrgent]
    split
    case isTrue lower =>
      obtain ⟨x, fold, mem, best⟩ := ih c rest
      have overB : NoLater s x b := (best c List.mem_cons_self).trans (.inl lower)
      exact ⟨x, fold, List.mem_cons_of_mem b mem, List.forall_mem_cons.mpr ⟨overB, best⟩⟩
    case isFalse notLower =>
      have bOverC : NoLater s b c := by
        unfold NoLater
        omega
      obtain ⟨x, fold, mem, best⟩ := ih b (List.pairwise_cons.mpr ⟨beforeL, rest.of_cons⟩)
      obtain ⟨overB, overL⟩ := List.forall_mem_cons.mp best
      refine ⟨x, fold, ?_, List.forall_mem_cons.mpr ⟨overB, List.forall_mem_cons.mpr ⟨overB.trans bOverC, overL⟩⟩⟩
      exact (List.mem_cons.mp mem).elim (· ▸ List.mem_cons_self) fun later => by simp [later]

theorem foldl_moreUrgent_eq_some_iff {s : State} {x : Source} {l : List Source}
    (rising : l.Pairwise fun x y => x.num < y.num) :
    l.foldl (moreUrgent s) none = some x ↔ IsMostUrgent s x l := by
  cases l with
  | nil => simp [IsMostUrgent]
  | cons b l =>
    obtain ⟨y, fold, best⟩ := foldl_moreUrgent_some s b l rising
    have started : (b :: l).foldl (moreUrgent s) none = some y := fold
    rw [started, Option.some.injEq]
    exact ⟨fun same => same ▸ best, best.unique⟩

/-- R116, step 1: the lowest priority number among the sources offered, and of those the lowest source number. -/
theorem mostUrgent_eq_some_iff (s : State) (x : Source) :
    mostUrgent s = some x ↔ Offered s x ∧ ∀ y, Offered s y → NoLater s x y := by
  rw [mostUrgent, foldl_moreUrgent_eq_some_iff (Source.all_rising.filter _)]
  simp [IsMostUrgent, Offered, State.eligible]

/-- R116, step 2: a source may go on a stack that is empty or has a top of higher priority number. -/
theorem qualifies_iff (s : State) (x : Source) :
    qualifies s x = true ↔
      ∀ top rest, s.trips.stack = top :: rest → (s.trips.src.get x).priority < (s.trips.src.get top).priority := by
  unfold qualifies
  split
  case h_1 empty => simp [empty]
  case h_2 stack => simp [stack]

theorem selected_eq_some_iff (s : State) (x : Source) :
    selected s = some x ↔
      Offered s x ∧ (∀ y, Offered s y → NoLater s x y) ∧
        ∀ top rest, s.trips.stack = top :: rest → (s.trips.src.get x).priority < (s.trips.src.get top).priority := by
  rw [selected, Option.filter_eq_some_iff, mostUrgent_eq_some_iff, qualifies_iff, and_assoc]

@[simp] theorem selected_heard (s : State) : selected (heard s) = selected s := selected_congr (heard_trips s)

/-! ### TAKE_TRIP -/

theorem answerTakeTrip_none {s : State} (h : selected s = none) : answerTakeTrip s = refuse .none s := by
  rw [answerTakeTrip, h]

/-- R116: the selected source is taken, and the reply describes it and the stack it is now on. -/
theorem answerTakeTrip_selected {s : State} {x : Source} (h : selected s = some x) :
    answerTakeTrip s =
      { state := take x s
        status := .ok
        content := selectionBytes x (s.trips.src.get x) (s.trips.stack.length + 1) } := by
  rw [answerTakeTrip, h]

/-- R116, R118: a take puts the source on the stack in service, and ATTN is evaluated anew. -/
theorem take_eq (x : Source) (s : State) :
    take x s = { s with
      trips := { s.trips with
        src := s.trips.src.set x { s.trips.src.get x with st := .inService }, stack := x :: s.trips.stack }
      link := { s.link with attn := (selected (take x s)).isSome } } := rfl

theorem take_trips (x : Source) (s : State) :
    (take x s).trips = { s.trips with
      src := s.trips.src.set x { s.trips.src.get x with st := .inService }, stack := x :: s.trips.stack } := rfl

/-! ### What a release leaves unchanged -/

@[simp] theorem releaseAt_trips (x : Source) (s : State) (k : Stand) : (releaseAt x s k).trips = s.trips := by
  unfold releaseAt
  dsimp only
  split
  · rfl
  · rw [deriveAgc, checkPending_eq]
    rfl

/-- R130: a release leaves the sources and the stack as they were. -/
@[simp] theorem releaseAction_trips (x : Source) (s : State) : (releaseAction x s).trips = s.trips := by
  unfold releaseAction
  induction scope x generalizing s with
  | nil => rfl
  | cons k rest ih => rw [List.foldl_cons, ih, releaseAt_trips]

@[simp] theorem evalAttn_trips (s : State) : (evalAttn s).trips = s.trips := rfl

/-! ### END_TRIP -/

/-- R121: a source has left the stack and its record is replaced. -/
def endedAs (x : Source) (r : SourceRec) (s : State) : State :=
  { s with trips := { s.trips with
      src := s.trips.src.set x r, stack := s.trips.stack.filter fun y => y ≠ x } }

@[simp] theorem endedAs_src (x : Source) (r : SourceRec) (s : State) :
    (endedAs x r s).trips.src = s.trips.src.set x r := rfl
@[simp] theorem endedAs_stack (x : Source) (r : SourceRec) (s : State) :
    (endedAs x r s).trips.stack = s.trips.stack.filter fun y => y ≠ x := rfl
@[simp] theorem endedAs_ceiling (x : Source) (r : SourceRec) (s : State) :
    (endedAs x r s).trips.ceiling = s.trips.ceiling := rfl

theorem setSource_leaveStack (x : Source) (r : SourceRec) (s : State) :
    setSource x r { s with trips := { s.trips with stack := s.trips.stack.filter fun y => y != x } } =
      endedAs x r s := by
  have others : (s.trips.stack.filter fun y => y != x) = s.trips.stack.filter fun y => y ≠ x :=
    List.filter_congr fun y _ => by rw [Bool.eq_iff_iff, bne_iff_ne, decide_eq_true_iff]
  rw [others]
  rfl

/-- R121: an EDGE source with its repeat mark set and a LEVEL source whose condition is true are raised again. -/
theorem raisedAgain_iff (r : SourceRec) :
    r.raisedAgain = true ↔ (r.mode = .edge ∧ r.rep = true) ∨ (r.mode = .level ∧ r.live = true) := by
  unfold SourceRec.raisedAgain
  cases r.mode <;> simp

theorem reportTrip_endedAs (x : Source) (r : SourceRec) (s : State) :
    reportTrip x (endedAs x r s) =
      report (.tripRaised x r.priority r.action (decide (r.priority < s.trips.ceiling)) r.acted) (endedAs x r s) := by
  simp [reportTrip, State.eligible]

section
variable {s : State} {x : Source}

theorem endService_again (again : (s.trips.src.get x).raisedAgain = true) :
    let r := s.trips.src.get x
    endService x s =
      evalAttn (report (.tripRaised x r.priority r.action (decide (r.priority < s.trips.ceiling)) r.acted)
        (endedAs x { r with st := .pending, rep := false } s)) := by
  simp only [endService, again, if_true, setSource_leaveStack, reportTrip_endedAs]

theorem endService_done (done : (s.trips.src.get x).raisedAgain = false) :
    endService x s =
      evalAttn (releaseAction x
        (endedAs x { s.trips.src.get x with st := .quiet, rep := false, acted := false } s)) := by
  simp only [endService, done, Bool.false_eq_true, if_false, setSource_leaveStack]

theorem answerEnded_again (again : (s.trips.src.get x).raisedAgain = true) :
    let r := s.trips.src.get x
    answerEnded x s =
      { state := evalAttn (report (.tripRaised x r.priority r.action (decide (r.priority < s.trips.ceiling)) r.acted)
          (endedAs x { r with st := .pending, rep := false } s))
        status := .ok
        content := be1 x.num ++ [1] ++ be1 (s.trips.stack.filter fun y => y ≠ x).length } := by
  simp only [answerEnded, endService_again again, evalAttn_trips, report_trips, endedAs_src, endedAs_stack,
    PerSource.get_set_self]
  rfl

theorem answerEnded_done (done : (s.trips.src.get x).raisedAgain = false) :
    answerEnded x s =
      { state := evalAttn (releaseAction x
          (endedAs x { s.trips.src.get x with st := .quiet, rep := false, acted := false } s))
        status := .ok
        content := be1 x.num ++ [0] ++ be1 (s.trips.stack.filter fun y => y ≠ x).length } := by
  simp only [answerEnded, endService_done done, evalAttn_trips, releaseAction_trips, endedAs_src, endedAs_stack,
    PerSource.get_set_self]
  rfl

end

/-- R167: a byte above 1 is no yes-or-no byte. -/
theorem yesNo?_eq_none {b : Byte} (h : 1 < b.toNat) : yesNo? b = none := by
  unfold yesNo?
  split
  case h_1 zero => omega
  case h_2 one => omega
  case h_3 => rfl

@[simp] theorem yesNo?_zero : yesNo? 0 = some false := rfl
@[simp] theorem yesNo?_one : yesNo? 1 = some true := rfl

section
variable {form source : Byte} {s : State} {x : Source}

theorem answerEndTrip_badForm (h : 1 < form.toNat) (s : State) : answerEndTrip form source s = refuse .range s := by
  rw [answerEndTrip, yesNo?_eq_none h]

/-- R119: with nothing in service there is no top of the stack to end. -/
theorem answerEndTrip_empty (empty : s.trips.stack = []) : answerEndTrip 0 source s = refuse .none s := by
  simp only [answerEndTrip, yesNo?_zero, empty]

theorem answerEndTrip_top {rest : List Source} (stack : s.trips.stack = x :: rest) :
    answerEndTrip 0 source s = answerEnded x s := by
  simp only [answerEndTrip, yesNo?_zero, stack]

theorem answerEndTrip_noSource (noSource : Source.ofNat? source.toNat = none) (s : State) :
    answerEndTrip 1 source s = refuse .range s := by
  simp only [answerEndTrip, yesNo?_one, noSource]

/-- R120: a source named is ended only if it is in service. -/
theorem answerEndTrip_named (named : Source.ofNat? source.toNat = some x) :
    answerEndTrip 1 source s =
      if (s.trips.src.get x).st = .inService then answerEnded x s else refuse .notFound s := by
  simp only [answerEndTrip, yesNo?_one, named]

end

end Sys2Proof.Machine

namespace Sys2Proof
open Machine Safety

/-- Settles O47: the selection by what the fold over the offered sources keeps, then the two answers. -/
theorem takeTripSelectsMostUrgent : Obligations.TakeTripSelectsMostUrgent := by
  intro tag x s h heardState offered r
  refine ⟨selected_eq_some_iff s x, fun empty => ?_, fun taken => ?_⟩
  · exact request_replied h (answerTakeTrip_none ((selected_heard s).trans empty))
  · have answer := answerTakeTrip_selected ((selected_heard s).trans taken)
    have trips := take_trips x (heard s)
    rw [take_eq, heard_trips] at answer
    rw [heard_trips] at trips
    exact ⟨_, congrArg Option.isSome (selected_congr trips), request_replied h answer⟩

/-- Settles O48: each form finds its source or is refused, and the source found is raised again or released. -/
theorem endTripRaisesOrReleases : Obligations.EndTripRaisesOrReleases := by
  intro tag form source s h heardState ends
  have ends_of_answer (x : Source) (answer : answerEndTrip form source (heard s) = answerEnded x (heard s)) :
      ends x := by
    dsimp only [ends]
    rw [← heard_trips s, ← raisedAgain_iff, Bool.not_eq_true]
    exact ⟨fun again => request_replied h (answer.trans (answerEnded_again again)),
      fun done => request_replied h (answer.trans (answerEnded_done done))⟩
  rw [← heard_trips s]
  refine ⟨fun bad => request_replied h (answerEndTrip_badForm bad _), ?_, ?_, ?_, ?_⟩
  · rintro rfl empty
    exact request_replied h (answerEndTrip_empty empty)
  · rintro x rest rfl stack
    exact ends_of_answer x (answerEndTrip_top stack)
  · rintro rfl above
    exact request_replied h (answerEndTrip_noSource (Source.ofNat?_eq_none above) _)
  · rintro x rfl named
    have answer := answerEndTrip_named (s := heard s) named
    refine ⟨fun out => request_replied h ?_, fun inService => ends_of_answer x ?_⟩
    · rw [answer, if_neg out]
      rfl
    · rw [answer, if_pos inService]

end Sys2Proof
end

section
/-! The interlock unit's two requests: CLEAR_STOP releases the STOP line (R133) and UNLOCK opens the lock (R138). -/
namespace Sys2Proof.Machine
open Sys2Proof.Safety

/-! ### CLEAR_STOP -/

/-- R133: the search through the 24 sources finds a STOP source that is acted exactly when there is one. -/
theorem stopActed_iff (s : State) :
    stopActed s = true ↔ ∃ x, (s.trips.src.get x).action = .stop ∧ (s.trips.src.get x).acted = true := by
  simp [stopActed]

theorem stopActed_congr {s t : State} (h : s.trips = t.trips) : stopActed s = stopActed t := by
  rw [stopActed, stopActed, h]

section
variable {s : State}

theorem answerClearStop_locked (locked : s.ilk.lockOpen = false) :
    answerClearStop s = { state := s, status := .locked, content := [bit s.ilk.stop] } := by
  simp [answerClearStop, locked]

theorem answerClearStop_tripped (isOpen : s.ilk.lockOpen = true) (acted : stopActed s = true) :
    answerClearStop s = { state := s, status := .tripped, content := [bit s.ilk.stop] } := by
  simp [answerClearStop, isOpen, acted]

/-- R133: past both checks the line is released, and the reply says so. -/
theorem answerClearStop_released (isOpen : s.ilk.lockOpen = true) (noneActed : stopActed s = false) :
    answerClearStop s =
      { state := { s with ilk := { s.ilk with stop := false } }, status := .ok, content := [0] } := by
  simp [answerClearStop, isOpen, noneActed, bit]

/-! ### UNLOCK -/

theorem answerUnlock_tripped (unfinished : (s.trips.src.get .linkSilent).st ≠ .quiet) :
    answerUnlock s = { state := s, status := .tripped, content := [bit s.ilk.lockOpen] } := by
  rw [answerUnlock, if_pos unfinished]

theorem answerUnlock_opens (quiet : (s.trips.src.get .linkSilent).st = .quiet) :
    answerUnlock s =
      { state := startSupervision { s with ilk := { s.ilk with lockOpen := true } }, status := .ok, content := [1] } := by
  rw [answerUnlock, if_neg (not_not_intro quiet)]
  rfl

end

/-- R149: an UNLOCK's own frame may have restarted the timer; starting it at the acceptance makes that no difference. -/
theorem startSupervision_heard_with_ilk (s : State) (ilk : Interlock) :
    startSupervision { heard s with ilk := ilk } = startSupervision { s with ilk := ilk } := by
  rw [heard_eq]
  rfl

end Sys2Proof.Machine

namespace Sys2Proof
open Machine Safety

/-- Settles O51: hearing a request's frame leaves the lock, the line and the sources as they were, so each of the two owners' answers
is the one named for what the checks found before it. -/
theorem clearStopAndUnlockByState : Obligations.ClearStopAndUnlockByState := by
  intro tag s h heardState stopIs lockIs stopped
  have ilk : heardState.ilk = s.ilk := heard_ilk s
  have trips : heardState.trips = s.trips := heard_trips s
  have acted_iff : stopActed heardState = true ↔ stopped := by
    rw [stopActed_congr trips]
    exact stopActed_iff s
  refine ⟨fun locked => request_replied h ?_, fun isOpen acted => request_replied h ?_,
    fun isOpen noneActed => request_replied h ?_, fun unfinished => request_replied h ?_,
    fun quiet => request_replied h ?_⟩
  · rw [answerClearStop_locked (by rwa [ilk]), ilk]
    rfl
  · rw [answerClearStop_tripped (by rwa [ilk]) (acted_iff.mpr acted), ilk]
    rfl
  · rw [← acted_iff, Bool.not_eq_true] at noneActed
    rw [answerClearStop_released (by rwa [ilk]) noneActed, ilk]
  · rw [answerUnlock_tripped (by rwa [trips]), ilk]
    rfl
  · rw [answerUnlock_opens (by rwa [trips]), ilk, startSupervision_heard_with_ilk]
    rfl

end Sys2Proof
end

section
/-! The control link's SET_LINK: the two values stored, and the supervision timer under the new time (R135, R149, R150). -/
namespace Sys2Proof.Machine
open Sys2Proof.Safety

theorem clampNat_eq_min (lo hi x : Nat) : clampNat lo hi x = if x < lo then lo else min x hi := by
  rw [clampNat]
  congr 1
  split <;> omega

/-- R150: a supervision time of 0 is kept; any other is brought within 20 to 2000. -/
theorem supervisionFor_eq (x : Nat) : supervisionFor x = if x = 0 then 0 else if x < 20 then 20 else min x 2000 := by
  rw [supervisionFor, clampNat_eq_min]

/-- R152: a request of two values is answered with ADJUSTED where either is not stored as it was sent. -/
theorem okOr_bne_or_bne (a b c d : Nat) : okOr (a != b || c != d) = if a = b ∧ c = d then .ok else .adjusted := by
  by_cases same : a = b
  · simp only [same, bne_self_eq_false, Bool.false_or, true_and, okOr_bne]
  · rw [bne_iff_ne.mpr same, Bool.true_or, if_neg fun both => same both.1]
    rfl

/-- The two times stored, and the timer under the new supervision time: started or stopped while the lock is OPEN, left as it was
otherwise (R149, R150). -/
def withLinkTimes (supervision debounce : Nat) (s : State) : State :=
  { s with
    ilk := { s.ilk with debounce := debounce }
    link := { s.link with
      supTime := supervision
      supLeft := if s.ilk.lockOpen then (if supervision = 0 then none else some supervision) else s.link.supLeft } }

/-- R150: SET_LINK's answer; whether the timer is set anew is read from the lock. -/
theorem answerSetLink_eq (supervision : Word) (debounce : Byte) (s : State) :
    let t := supervisionFor supervision.toNat
    let d := clampNat 1 50 debounce.toNat
    answerSetLink supervision debounce s =
      { state := withLinkTimes t d s
        status := if t = supervision.toNat ∧ d = debounce.toNat then .ok else .adjusted
        content := be2 t ++ be1 d } := by
  intro t d
  rw [answerSetLink, okOr_bne_or_bne, withLinkTimes]
  cases isOpen : s.ilk.lockOpen <;> rfl

end Sys2Proof.Machine

namespace Sys2Proof
open Machine Safety

/-- Settles O12: the owner's answer to the state that heard the frame, with its two clamps written out. -/
theorem setLinkStoresBothTimes : Obligations.SetLinkStoresBothTimes := by
  intro tag sup deb s mayAnswer t d h
  have time : supervisionFor sup.toNat = t := supervisionFor_eq _
  have debounce : clampNat 1 50 deb.toNat = d := clampNat_eq_min 1 50 _
  have answer := answerSetLink_eq sup deb h
  rw [time, debounce] at answer
  exact request_replied mayAnswer answer

end Sys2Proof
end

section
/-! The report queue: how it takes an offered report by its fill (R163). -/
namespace Sys2Proof.Machine

/-- R169: only a TRIP_RAISED has the type code 0x81. -/
theorem Report.isTrip_iff_type (r : Report) : r.isTrip = true ↔ r.type = 0x81#8 := by
  cases r <;> simp [Report.isTrip, Report.type]

section
variable {l : Link} {r : Report}

theorem Link.offer_joins (room : l.reports.length < 32) : l.offer r = { l with reports := l.reports ++ [r] } :=
  if_pos room

theorem Link.no_room (full : l.reports.length = 32) : ¬l.reports.length < Config.reportQueueSize :=
  Nat.not_lt.mpr (Nat.le_of_eq full.symm)

/-- R163: at a full queue a TRIP_RAISED takes the place of the report evicted for it. -/
theorem Link.offer_evicts {rest : List Report} (full : l.reports.length = 32) (trip : r.isTrip = true)
    (evicted : evictOldest l.reports = some rest) :
    l.offer r = { l with reports := rest ++ [r], lost := true } := by
  rw [offer, if_neg (no_room full), if_pos trip, evicted]

/-- R163: a full queue of TRIP_RAISED reports loses even a TRIP_RAISED. -/
theorem Link.offer_trip_lost (full : l.reports.length = 32) (trip : r.isTrip = true)
    (noneEvicted : evictOldest l.reports = none) : l.offer r = { l with lost := true } := by
  rw [offer, if_neg (no_room full), if_pos trip, noneEvicted]

theorem Link.offer_other_lost (full : l.reports.length = 32) (other : r.isTrip = false) :
    l.offer r = { l with lost := true } := by
  rw [offer, if_neg (no_room full), if_neg (Bool.eq_false_iff.mp other)]

end

end Sys2Proof.Machine

namespace Sys2Proof
open Machine Safety

/-- Settles O9: an offer by the queue's fill and the report's kind; what a full queue gives up for a TRIP_RAISED is what the search
for its oldest other report finds. -/
theorem reportQueueKeepsTrips : Obligations.ReportQueueKeepsTrips := by
  intro l r
  refine ⟨r.isTrip_iff_type, Link.offer_joins, fun full trip pre q post queue trips other => ?_,
    fun full trip trips => Link.offer_trip_lost full trip (evictOldest_eq_none trips), Link.offer_other_lost, report_eq r⟩
  have evicted : evictOldest l.reports = some (pre ++ post) := by
    rw [queue, evictOldest_eq_some pre post q trips other]
  exact Link.offer_evicts full trip evicted

end Sys2Proof
end

section
/-! What a step is made of. `Walk P` says that the elementary operations of the part keep `P`; every event's effect, every request's owner
and so every step is a walk through them, which is followed here once for all invariants. -/
namespace Sys2Proof.Machine
open Sys2Proof.Safety

/-! ### What an elementary operation may ignore -/

/-- The state without the items that no invariant reads: the counters, the comparators, the lock, the E-stop inputs, the debounce time and
the common settings of gauge control. -/
def State.besides (s : State) : State :=
  { s with
    counters := .fill .reset
    chan := { s.chan with biteIn := .fill false, overload := .fill false }
    ilk := { s.ilk with lockOpen := false, estop := .fill { demanded := false, timer := none }, debounce := 0 }
    gauge := { s.gauge with db := 0, gMon := 0, lockonSeg := 0 } }

/-- The link controller may change so outside of ATTN's evaluation and of replies: ATTN stays, the report queue stays within its
capacity, and no reply joins. -/
structure QuietLink (l l' : Link) : Prop where
  attn : l'.attn = l.attn
  reports : l.reports.length ≤ 32 → l'.reports.length ≤ 32
  replies : l'.replies.length ≤ l.replies.length

/-- What invariants read of the tracking unit: the distances in the span queues with the spans' lengths, the kind of the record under
point 7, and the two states of the entry. -/
structure TrackShape where
  spanLen : PerSpan Nat
  dists : PerSpan (List Int)
  exitKind : Option Kind
  strip : Bool
  entry : EntryState

def Tracking.shape (t : Tracking) : TrackShape where
  spanLen := t.spanLen
  dists := .ofFn fun k => (t.queues.get k).map Queued.dist
  exitKind := t.underExit.map Seg.kind
  strip := t.strip
  entry := t.entry

/-- A channel's record may be replaced so: a channel that is not enabled stays OFF. -/
def KeepsOff (r r' : ChannelRec) : Prop := (r.enabled = false → r.st = .off) → r'.enabled = false → r'.st = .off

/-- Sources 13 to 15, whose conditions the trip controller derives (R110). -/
def Source.isDerived : Source → Bool
  | .exitGauge | .entryGauge | .channelFault => true
  | _ => false

/-- What an edge, or a condition handed on, comes to keeps `P`. -/
structure Edged (P : State → Prop) : Prop where
  latch : ∀ {s x}, (s.trips.src.get x).st = .quiet → (s.trips.src.get x).masked = false → P s → P (latch x s)
  again : ∀ {s x}, (s.trips.src.get x).st = .inService → P s → P (setSource x { s.trips.src.get x with rep := true } s)
  live : ∀ {s x} b, Source.isDerived x = false → P s → P (setLive x b s)

/-- The operations of the link, the trips, the engines and gauge control keep `P`, each taken as it is called. -/
structure Elementary (P : State → Prop) : Prop extends Edged P where
  link : ∀ {s l}, QuietLink s.link l → P s → P (setLink l s)
  attn : ∀ {s}, P s → P (evalAttn s)
  ceiling : ∀ {s c}, 2 ≤ c → c ≤ 8 → P s →
    P (evalAttn (Source.all.foldl actIfEligible { s with trips := { s.trips with ceiling := c } }))
  take : ∀ {s x}, selected s = some x → P s → P (take x s)
  ends : ∀ {s x}, x ∈ s.trips.stack ∨ (s.trips.src.get x).st = .inService → P s → P (endService x s)
  clearStop : ∀ {s}, stopActed s = false → P s → P { s with ilk := { s.ilk with stop := false } }
  restart : ∀ {s}, running s = false → P s → P (restartPart s)
  record : ∀ {s c r}, r.enabled = (s.chan.recs.get c).enabled → r.st = (s.chan.recs.get c).st → P s → P (setChannel c r s)
  feedback : ∀ {s} k x, P s → P (takeFeedback k (clamp (s.eng.get k).cfg.gapMin (s.eng.get k).cfg.gapMax x) s)
  finish : ∀ {s k a} st, (s.eng.get k).act.active? = some a → P s → P (deriveAgc k (finishMove k a.move st s))
  posErr : ∀ {s} k n, P s → P (setEngine k { s.eng.get k with posErr := n } s)
  update : ∀ {s} k, P s → P (update k s)
  hold : ∀ {s} k, P s → P (holdActive k s)
  resume : ∀ {s} k, P s → P (resumeActive k s)
  cancel : ∀ {s k t m}, s.slots.get t = some k → ((s.eng.get k).act.active?.filter fun a => a.move.tag == some t) = none →
    ((s.eng.get k).pending.find? fun m => m.tag == some t) = some m → P s → P (cancelPending k m s)
  move : ∀ {s k t target} rate, inWindow (s.eng.get k).cfg (uint target) → s.retracting k = false → s.slots.get t = none →
    (s.eng.get k).pending.length < 4 → P s → P (takeMove k (linkMove t target rate) (setSlots (s.slots.set t (some k)) s))
  settings : ∀ {s k f}, inWindow (clampedCfg f) (s.eng.get k).ref → (s.eng.get k).atRest = true → P s →
    P (setEngine k { s.eng.get k with cfg := clampedCfg f } s)
  flags : ∀ {s} k a b, P s → P (setAgc k { s.gauge.stands.get k with stepLimited := a, atLimit := b } s)
  mode : ∀ {s} k mode, P s → P (changeMode k mode s)

/-- All elementary operations keep `P`: those of `Elementary`, and those of the channels, the tracking unit and the schedule store. -/
structure Walk (P : State → Prop) : Prop extends Elementary P where
  besides : ∀ {s t}, t.besides = s.besides → P s → P t
  channel : ∀ {s c r l} b o, KeepsOff (s.chan.recs.get c) r → QuietLink s.link l → P s →
    P (handState c { s with chan := { recs := s.chan.recs.set c r, biteIn := b, overload := o }, link := l })
  track : ∀ {s t}, t.shape = s.trk.shape → P s → P (setTrk t s)
  nearer : ∀ {s} k d, P s → P (reduceDistances k d s)
  front : ∀ {s k q rest past} byLength, s.trk.queues.get k = q :: rest → 0 ≤ past → P s →
    P (arrive k q.seg past byLength (popFront k s))
  body : ∀ {s}, s.trk.entry = .admitted → 4 < s.trk.free → P s → P (birth .body s)
  debounced : ∀ {s}, P s → P (stripDebounced s)
  tracking : ∀ {s} k f, s.trk.used = 0 → P s → P (storeTracking k f s)
  load : ∀ {s} d, s.sched.queue.length < 4 → P s → P (setSched { s.sched with queue := s.sched.queue ++ [d] } s)
  flush : ∀ {s}, P s → P (setSched { s.sched with queue := [] } s)

/-! ### The link's quiet changes -/

theorem QuietLink.refl (l : Link) : QuietLink l l := ⟨rfl, id, Nat.le_refl _⟩

theorem quietLink_next (l : Link) : QuietLink l l.next where
  attn := by rw [Link.next_eq]
  reports h := Nat.le_trans l.next_length.1 h
  replies := l.next_length.2

theorem quietLink_report (l : Link) (r : Report) : QuietLink l (l.offer r).pump where
  attn := by rw [Link.pump_eq, Link.offer_eq]
  reports h := Nat.le_trans (Link.pump_length _).1 (Link.offer_length l r h)
  replies := by
    have same : (l.offer r).replies = l.replies := by rw [Link.offer_eq]
    exact Nat.le_trans (Link.pump_length _).2 (Nat.le_of_eq (congrArg List.length same))

theorem QuietLink.trans {a b c : Link} (ab : QuietLink a b) (bc : QuietLink b c) : QuietLink a c where
  attn := bc.attn.trans ab.attn
  reports h := bc.reports (ab.reports h)
  replies := Nat.le_trans bc.replies ab.replies

theorem quietLink_reportIf (r : Option Report) (s : State) : QuietLink s.link (reportIf r s).link := by
  cases r with
  | none => exact .refl _
  | some r => exact quietLink_report _ _

/-! ### The tracking unit's shape -/

theorem Tracking.shape_eq {t u : Tracking} (spanLen : t.spanLen = u.spanLen)
    (dists : ∀ k, (t.queues.get k).map Queued.dist = (u.queues.get k).map Queued.dist)
    (exitKind : t.underExit.map Seg.kind = u.underExit.map Seg.kind) (strip : t.strip = u.strip) (entry : t.entry = u.entry) :
    t.shape = u.shape := by
  rw [shape, shape, spanLen, exitKind, strip, entry, PerSpan.eq_of_get (t := .ofFn _) (u := .ofFn _)]
  simpa using dists

/-- Changing a record in place keeps the shape where its kind stays. -/
theorem Tracking.shape_mapSeg (t : Tracking) (id : Nat) {f : Seg → Seg} (kind : ∀ g, (f g).kind = g.kind) :
    (t.mapSeg id f).shape = t.shape := by
  refine shape_eq rfl (fun k => ?_) ?_ rfl rfl
  · simp [mapSeg, Function.comp_def]
  · simp only [mapSeg, Option.map_map]
    congr 1
    funext g
    simp only [Function.comp_apply]
    split
    · exact kind g
    · rfl

/-! ### Edges and conditions -/

section
variable {P : State → Prop} (w : Edged P) {s : State}
include w

theorem Edged.edge (x : Source) (h : P s) : P (edge x s) := by
  unfold Machine.edge
  dsimp only
  split
  · exact h
  · rename_i unmasked
    split
    · exact w.latch ‹_› (by simpa using unmasked) h
    · exact w.again ‹_› h
    · exact h
    · exact h

theorem Edged.condition {x : Source} (b : Bool) (own : Source.isDerived x = false) (h : P s) : P (condition x b s) := by
  unfold Machine.condition
  split
  · exact h
  · split
    · exact w.edge x (w.live b own h)
    · exact w.live b own h

theorem Edged.latchCheck (x : Source) (h : P s) : P (latchCheck s x) := by
  unfold Machine.latchCheck
  dsimp only
  split
  · rename_i due
    simp only [Bool.and_eq_true, Bool.not_eq_true', beq_iff_eq] at due
    obtain ⟨⟨⟨unmasked, -⟩, quiet⟩, -⟩ := due
    exact w.latch quiet unmasked h
  · exact h

/-- R110: sources 13 to 15 may be handed on as well where `P` does not read their conditions. -/
theorem Edged.derivedConditions (anyLive : ∀ {u : State} (x : Source) (b : Bool), P u → P (setLive x b u)) (h : P s) :
    P (derivedConditions s) := by
  have handed (x : Source) (b : Bool) {u : State} (hu : P u) : P (Machine.condition x b u) := by
    unfold Machine.condition
    split
    · exact hu
    · split
      · exact w.edge x (anyLive x b hu)
      · exact anyLive x b hu
  exact handed _ _ (handed _ _ (handed _ _ h))
end

/-! ### Events -/

section
variable {P : State → Prop} (w : Walk P) {s : State}
include w

/-! Values of channels. -/

theorem Walk.accumulate (p : Point) (x : Int) (h : P s) : P (accumulate p x s) := w.track rfl h

theorem Walk.forceValue (k : Stand) (force : Int) (h : P s) : P (forceValue k force s) := by
  have noted (e : Int) : P (takeError k e s) := by
    unfold takeError
    split
    · exact w.accumulate _ _ h
    · exact h
  unfold Machine.forceValue
  dsimp only
  split
  · split
    · exact w.feedback _ _ (w.flags _ _ _ (noted _))
    · exact noted _
  · exact h

theorem Walk.settleTest (k : Stand) (v : Int) (h : P s) : P (settleTest k v s) := by
  unfold Machine.settleTest
  dsimp only
  split
  · rename_i a act
    split
    · exact w.finish _ (by rw [act]; rfl) h
    · exact h
  · exact h
  · exact h
  · exact h

theorem Walk.positionValue (k : Stand) (v : Int) (h : P s) : P (positionValue k v s) := by
  refine w.settleTest k v ?_
  unfold countPosErr
  dsimp only
  split
  · exact h
  · exact w.condition _ rfl (w.posErr k _ h)

theorem Walk.entryValue (v : Int) (h : P s) : P (entryValue v s) := by
  unfold Machine.entryValue
  repeat' split
  all_goals first | exact h | exact w.accumulate _ _ h

theorem Walk.exitValue (v : Int) (h : P s) : P (exitValue v s) := by
  unfold Machine.exitValue
  repeat' split
  all_goals first | exact h | exact w.accumulate _ _ h

theorem Walk.handValue (c : Channel) (r : ChannelRec) (h : P s) : P (handValue c r s) := by
  unfold Machine.handValue
  split
  · exact w.forceValue _ _ h
  · exact w.positionValue _ _ h
  · exact w.entryValue _ h
  · exact w.exitValue _ h
  · exact h

/-! Length events and bites. -/

theorem Walk.headWatchRunsOut (k : Stand) (h : P s) : P (headWatchRunsOut k s) := w.edge _ (w.track rfl h)
theorem Walk.tailWatchRunsOut (k : Stand) (h : P s) : P (tailWatchRunsOut k s) := w.edge _ (w.track rfl h)

theorem Walk.reduceHeadWatch (k : Stand) (d : Nat) (h : P s) : P (reduceHeadWatch k d s) := by
  unfold Machine.reduceHeadWatch
  split
  · exact h
  · split
    · exact w.headWatchRunsOut k h
    · exact w.track rfl h

theorem Walk.reduceTailWatch (k : Stand) (d : Nat) (h : P s) : P (reduceTailWatch k d s) := by
  unfold Machine.reduceTailWatch
  split
  · exact h
  · split
    · exact w.tailWatchRunsOut k h
    · exact w.track rfl h

theorem Walk.arriveReached (k : Span) (n : Nat) (h : P s) : P (arriveReached k n s) := by
  induction n generalizing s with
  | zero => exact h
  | succ n ih =>
    unfold Machine.arriveReached
    split
    · exact h
    · split
      · exact ih (w.front true ‹_› (by omega) h)
      · exact h

theorem Walk.forceArrivals (k : Span) (n : Nat) (h : P s) : P (forceArrivals k n s) := by
  induction n generalizing s with
  | zero => exact h
  | succ n ih =>
    unfold Machine.forceArrivals
    split
    · exact h
    · exact ih (w.front false ‹_› (Int.le_refl 0) h)

theorem Walk.entryLength (d : Nat) (h : P s) : P (entryLength d s) := by
  unfold Machine.entryLength
  dsimp only
  split
  · exact h
  · rename_i admitted
    have grown : P (setTrk { s.trk with entryDist := satAdd s.trk.entryDist d } s) := w.track rfl h
    split
    · exact grown
    · split
      · exact w.body (Decidable.of_not_not admitted) ‹_› grown
      · split
        · exact grown
        · exact w.edge _ (w.track rfl grown)

theorem Walk.lengthEvent (k : Span) (d : Nat) (h : P s) : P (lengthEvent k d s) := by
  unfold Machine.lengthEvent
  dsimp only
  cases k with
  | entry => exact w.entryLength d (w.arriveReached _ _ (w.nearer _ d (w.reduceHeadWatch .s1 d h)))
  | after j =>
    refine w.arriveReached _ _ (w.nearer _ d (w.reduceTailWatch j d ?_))
    split
    · exact w.reduceHeadWatch _ d h
    · exact h
    · exact h

theorem Walk.completeCount (k : Span) (h : P s) : P (completeCount k s) := by
  unfold Machine.completeCount
  dsimp only
  split
  · exact w.besides (s := s) rfl h
  · exact w.lengthEvent _ _ (w.besides (s := s) rfl h)

theorem Walk.takePulse (k : Span) (h : P s) : P (takePulse k s) := by
  unfold Machine.takePulse
  dsimp only
  split
  · exact w.besides (s := s) rfl h
  · exact w.completeCount k h

theorem Walk.forceOrLose (k : Stand) (p : Seg → Bool) (window : Nat) (h : P s) : P (forceOrLose k p window s) := by
  unfold Machine.forceOrLose
  split
  · split
    · exact w.forceArrivals _ _ h
    · exact w.edge _ h
  · exact w.edge _ h

theorem Walk.handBite (k : Stand) (was : Bool) (h : P s) : P (handBite k was s) := by
  unfold Machine.handBite biteOutAt biteInAt
  dsimp only
  repeat' split
  all_goals first
    | exact h
    | exact w.track rfl h
    | exact w.forceOrLose _ _ _ h
    | exact w.forceOrLose _ _ _ (w.track rfl h)

/-! Samples. -/

omit w in
theorem keepsOff_sampled (r : ChannelRec) (raw : Word) (valid : Bool) : KeepsOff r (r.sampled raw valid) := by
  intro off
  have stays : (r.sampled raw valid).enabled = r.enabled := by
    unfold ChannelRec.sampled ChannelRec.accept ChannelRec.reject
    dsimp only
    repeat' split
    all_goals rfl
  have on (notOff : r.st ≠ .off) : (r.sampled raw valid).enabled = false → (r.sampled raw valid).st = .off := by
    intro disabled
    exact absurd (off (stays.symm.trans disabled)) notOff
  cases st : r.st with
  | off => rw [stays]; simp [ChannelRec.sampled, st]
  | settling | valid | stale | fault => exact on (by rw [st]; simp)

omit w in
/-- R12 to R14: before a sample is handed on, its record is stored, its report queued and the comparators evaluated. -/
theorem sample_recorded (c : Channel) (r : ChannelRec) (q : Option Report) (accepted : Bool) (s : State) :
    ∃ b o l, QuietLink s.link l ∧
      (let u := reportIf q (setChannel c r s)
       if accepted then compareOf c r u else u) =
        { s with chan := { recs := s.chan.recs.set c r, biteIn := b, overload := o }, link := l } := by
  have quiet : QuietLink s.link (reportIf q (setChannel c r s)).link := quietLink_reportIf q (setChannel c r s)
  have plain : reportIf q (setChannel c r s) = setLink (reportIf q (setChannel c r s)).link (setChannel c r s) := by
    cases q <;> rfl
  dsimp only
  rw [plain]
  split
  · unfold compareOf
    split
    · exact ⟨_, _, _, quiet, rfl⟩
    · exact ⟨_, _, _, quiet, rfl⟩
  · exact ⟨_, _, _, quiet, rfl⟩

theorem Walk.handAccepted (c : Channel) (wasIn : Bool) (r : ChannelRec) (h : P s) : P (handAccepted c wasIn r s) := by
  refine w.handValue c r ?_
  split
  · exact w.condition _ rfl (w.handBite _ _ h)
  · exact h
  · exact h
  · exact h

theorem Walk.takeSample (c : Channel) (raw : Word) (valid : Bool) (h : P s) : P (takeSample c raw valid s) := by
  have noticed (old new : ChannelRec) (accepted : Bool) (hold : old = s.chan.recs.get c)
      (enabled : new.enabled = old.enabled) (keeps : KeepsOff old new) (q : Option Report) :
      let u := reportIf q (setChannel c new s)
      let u := if accepted then compareOf c new u else u
      P (if old.st = new.st then u else handState c u) := by
    obtain ⟨b, o, l, quiet, shown⟩ := sample_recorded c new q accepted s
    dsimp only at shown ⊢
    rw [shown]
    split
    · rename_i same
      refine w.besides (s := setLink l (setChannel c new s)) rfl (w.link quiet (w.record ?_ ?_ h))
      · rw [enabled, hold]
      · rw [← same, hold]
    · exact w.channel _ _ (hold ▸ keeps) quiet h
  have enabled : ((s.chan.recs.get c).sampled raw valid).enabled = (s.chan.recs.get c).enabled := by
    unfold ChannelRec.sampled ChannelRec.accept ChannelRec.reject
    dsimp only
    repeat' split
    all_goals rfl
  have told := noticed _ _ (valid && ((s.chan.recs.get c).sampled raw valid).st == .valid) rfl enabled
    (keepsOff_sampled _ raw valid) (sampleReport c (s.chan.recs.get c) ((s.chan.recs.get c).sampled raw valid))
  have handed (accepted : Bool) {u : State} (hu : P u) :
      P (if accepted then Machine.handAccepted c (biteOf c s) ((s.chan.recs.get c).sampled raw valid) u else u) := by
    split
    · exact w.handAccepted _ _ _ hu
    · exact hu
  exact handed _ told

theorem Walk.staleExpires (c : Channel) (h : P s) : P (staleExpires c s) := by
  unfold Machine.staleExpires
  dsimp only
  have stale (st : (s.chan.recs.get c).st ≠ .off) :
      P (handState c (Machine.report (.channelState c .stale .stale)
        (setChannel c { s.chan.recs.get c with st := .stale, staleLeft := none } s))) :=
    w.channel s.chan.biteIn s.chan.overload (fun off disabled => absurd (off disabled) st) (quietLink_report s.link _) h
  split
  · rename_i st _
    exact stale (by rw [st]; simp)
  · rename_i st _
    exact stale (by rw [st]; simp)
  · exact h
end

end Sys2Proof.Machine
end

section
/-! What each request's owner does, as a walk through the elementary operations. -/
namespace Sys2Proof.Machine
open Sys2Proof.Safety

/-- SET_SOURCE, whose latching check follows its reply (log 11), is the one request whose owner leaves work to be done. -/
def Instr.isSetSource : Instr → Bool
  | .setSource _ _ => true
  | _ => false

theorem keepsOff_configured (r : ChannelRec) (range : Int × Int) (enable : Bool) (f : ChannelFields) :
    KeepsOff r (configured r range enable f) := by
  intro _ disabled
  have off : enable = false := disabled
  simp [configured, ChannelRec.cleared, off]

theorem clampNat_bounds {lo hi : Nat} (range : lo ≤ hi) (x : Nat) : lo ≤ clampNat lo hi x ∧ clampNat lo hi x ≤ hi := by
  unfold clampNat
  split
  · omega
  · split <;> omega

section
variable {P : State → Prop} (w : Walk P) {s : State}
include w

theorem Walk.answerSetLink (sup : Word) (deb : Byte) (h : P s) : P (answerSetLink sup deb s).state := by
  rw [answerSetLink_eq]
  have quiet : QuietLink s.link (withLinkTimes (supervisionFor sup.toNat) (clampNat 1 50 deb.toNat) s).link :=
    ⟨rfl, id, Nat.le_refl _⟩
  exact w.besides (s := setLink _ s) rfl (w.link quiet h)

theorem Walk.answerSetChannel (f : ChannelFields) (h : P s) : P (answerSetChannel f s).state := by
  unfold Machine.answerSetChannel
  split
  · exact w.channel s.chan.biteIn s.chan.overload (keepsOff_configured _ _ _ _) (quietLink_report s.link _) h
  · exact h

theorem Walk.answerSetStand (f : StandFields) (h : P s) : P (answerSetStand f s).state := by
  unfold Machine.answerSetStand
  dsimp only
  split
  · exact h
  · split
    · exact h
    · split
      · exact h
      · rename_i inside rest
        refine w.settings ⟨?_, ?_⟩ (by simpa using rest) h <;> omega

theorem Walk.answerSetAgc (f : AgcFields) (h : P s) : P (answerSetAgc f s).state := by
  unfold Machine.answerSetAgc
  dsimp only
  split
  · split
    · exact h
    · exact w.mode _ _ (w.besides (s := s) rfl h)
  · exact h

theorem Walk.answerSetTracking (f : TrackingFields) (h : P s) : P (answerSetTracking f s).state := by
  unfold Machine.answerSetTracking
  split
  · exact h
  · split
    · exact h
    · exact w.tracking _ _ (Decidable.of_not_not ‹_›) h

theorem Walk.answerLoadSchedule (f : ScheduleFields) (h : P s) : P (answerLoadSchedule f s).state := by
  unfold Machine.answerLoadSchedule
  split
  · exact h
  · rename_i room
    exact w.load _ (Nat.lt_of_not_le room) h

theorem Walk.answerMove (tag stand : Byte) (target rate : Word) (h : P s) : P (answerMove tag stand target rate s).state := by
  unfold Machine.answerMove
  dsimp only
  split
  · rename_i k t _ _
    split
    · exact h
    split
    · exact h
    split
    · exact h
    split
    · exact h
    split
    · exact h
    · rename_i inside _ free slot room
      refine w.move rate ⟨?_, ?_⟩ (by simpa using free) (by simpa using slot) (Nat.lt_of_not_le room) h <;> omega
  · exact h

theorem Walk.answerHoldMove (stand : Byte) (h : P s) : P (answerHoldMove stand s).state := by
  unfold Machine.answerHoldMove
  repeat' split
  all_goals first | exact h | exact w.hold _ h

theorem Walk.answerResumeMove (stand : Byte) (h : P s) : P (answerResumeMove stand s).state := by
  unfold Machine.answerResumeMove
  repeat' split
  all_goals first | exact h | exact w.resume _ h

theorem Walk.answerCancelMove (named : Byte) (h : P s) : P (answerCancelMove named s).state := by
  unfold Machine.answerCancelMove
  dsimp only
  split
  · exact h
  split
  · exact h
  rename_i held
  split
  · rename_i active
    exact w.finish _ (Option.filter_eq_some_iff.mp active).1 h
  · rename_i noActive
    split
    · exact w.cancel held noActive ‹_› h
    · exact h

theorem Walk.answerSetCeiling (ceiling : Byte) (h : P s) : P (answerSetCeiling ceiling s).state := by
  obtain ⟨low, high⟩ := clampNat_bounds (lo := 2) (hi := 8) (by omega) ceiling.toNat
  unfold Machine.answerSetCeiling
  dsimp only
  exact w.ceiling low high h

theorem Walk.answerTakeTrip (h : P s) : P (answerTakeTrip s).state := by
  unfold Machine.answerTakeTrip
  split
  · exact h
  · exact w.take ‹_› h

theorem Walk.answerEndTrip (form source : Byte) (h : P s) : P (answerEndTrip form source s).state := by
  unfold Machine.answerEndTrip
  split
  · exact h
  · split
    · exact h
    · rename_i stack
      exact w.ends (.inl (by rw [stack]; exact List.mem_cons_self)) h
  · split
    · exact h
    · split
      · exact w.ends (.inr ‹_›) h
      · exact h

theorem Walk.answerClearStop (h : P s) : P (answerClearStop s).state := by
  unfold Machine.answerClearStop
  split
  · exact h
  split
  · exact h
  · exact w.clearStop (by simpa using ‹¬stopActed s = true›) h

theorem Walk.startSupervision (h : P s) : P (startSupervision s) := by
  refine w.link ⟨rfl, id, Nat.le_refl _⟩ h

theorem Walk.answerUnlock (h : P s) : P (answerUnlock s).state := by
  unfold Machine.answerUnlock
  split
  · exact h
  · exact w.startSupervision (w.besides (s := s) rfl h)

theorem Walk.answerRestart (h : P s) : P (answerRestart s).state := by
  unfold Machine.answerRestart
  split
  · exact h
  · exact w.restart (by simpa using ‹¬running s = true›) h

/-- Every request's owner but SET_SOURCE's keeps what the elementary operations keep. -/
theorem Walk.answer (i : Instr) (other : Instr.isSetSource i = false) (h : P s) : P (ownerOf i s).state := by
  cases i with
  | setSource tag f => exact absurd other (by simp [Instr.isSetSource])
  | setChannel tag f => exact w.answerSetChannel f h
  | setStand tag f => exact w.answerSetStand f h
  | setAgc tag f => exact w.answerSetAgc f h
  | setTracking tag f => exact w.answerSetTracking f h
  | loadSchedule tag f => exact w.answerLoadSchedule f h
  | flushSchedules tag => exact w.flush h
  | move tag stand target rate => exact w.answerMove tag stand target rate h
  | holdMove tag stand => exact w.answerHoldMove stand h
  | resumeMove tag stand => exact w.answerResumeMove stand h
  | cancelMove tag named => exact w.answerCancelMove named h
  | setCeiling tag ceiling => exact w.answerSetCeiling ceiling h
  | takeTrip tag => exact w.answerTakeTrip h
  | endTrip tag form source => exact w.answerEndTrip form source h
  | raiseTrip tag => exact w.edge .commanded h
  | clearStop tag => exact w.answerClearStop h
  | unlock tag => exact w.answerUnlock h
  | restart tag => exact w.answerRestart h
  | setLink tag sup deb => exact w.answerSetLink sup deb h
  | readChannel tag channel =>
    show P (Machine.answerReadChannel channel s).state
    unfold answerReadChannel
    split <;> exact h
  | readStand tag stand =>
    show P (Machine.answerReadStand stand s).state
    unfold answerReadStand
    split <;> exact h
  | readSegment tag id =>
    show P (Machine.answerReadSegment id s).state
    unfold answerReadSegment
    repeat' split
    all_goals exact h
  | peekTrip tag =>
    show P (Machine.answerPeekTrip s).state
    unfold answerPeekTrip
    split <;> exact h
  | _ => exact h

end

/-- Nothing follows the reply of a request but SET_SOURCE. -/
theorem followUp_of_other (i : Instr) (other : Instr.isSetSource i = false) (s : State) : (ownerOf i s).followUp = id := by
  cases i with
  | setSource tag f => exact absurd other (by simp [Instr.isSetSource])
  | _ =>
    unfold ownerOf
    try
      simp only [answerSetChannel, answerReadChannel, answerSetStand, answerReadStand, answerSetAgc, answerSetTracking,
        answerReadSegment, answerLoadSchedule, answerMove, answerHoldMove, answerResumeMove, answerCancelMove, answerTakeTrip,
        answerPeekTrip, answerEndTrip, answerClearStop, answerUnlock, answerRestart]
      repeat' split
    all_goals rfl

end Sys2Proof.Machine
end

section
/-! Invariants that read neither the tracking unit nor the schedule store: `Inner P` says that the operations below an arrival, a birth and
a channel's change keep `P`, and a walk follows. -/
namespace Sys2Proof.Machine
open Sys2Proof.Safety

/-- The state without the tracking unit, the schedule store and what `besides` leaves out. -/
def State.untracked (s : State) : State := { s.besides with trk := .reset, sched := .reset }

/-- R72: a force or position channel's change of state is a stand's AGC derivation. -/
def toldGauge (c : Channel) (s : State) : State :=
  match c with
  | .force k | .position k => deriveAgc k s
  | .entry | .exit => s

theorem handState_eq (c : Channel) (s : State) : handState c s = tripChannel c (s.chan.recs.get c).st (toldGauge c s) := by
  cases c <;> rfl

/-- The elementary operations and the steps of arrivals, births and channels' changes keep `P`, which does not read the tracking unit
or the schedule store. -/
structure Inner (P : State → Prop) : Prop extends Elementary P where
  untracked : ∀ {s t}, t.untracked = s.untracked → P s → P t
  inputs : ∀ {s} i, P s → P (derivedConditions { s with trips := { s.trips with inputs := i } })
  told : ∀ {s c r}, KeepsOff (s.chan.recs.get c) r → P s → P (toldGauge c (setChannel c r s))
  setup : ∀ {s} k gap, P s → P (issueSetup k gap s)
  arrival : ∀ {s} k g, P s → P (arrivalAtGauge k g s)
  trim : ∀ {s} m, (s.gauge.stands.get .s6).st = .active → P s → P { s with gauge := { s.gauge with m := clamp (-2000) 2000 m } }

section
variable {P : State → Prop} (w : Inner P) {s : State}
include w

theorem Inner.setTrk (t : Tracking) (h : P s) : P (setTrk t s) := w.untracked (s := s) rfl h
theorem Inner.setSched (d : SchedStore) (h : P s) : P (setSched d s) := w.untracked (s := s) rfl h
theorem Inner.report (r : Report) (h : P s) : P (report r s) := w.link (quietLink_report _ _) h

theorem Inner.setupAt (key : Nat) (sch : Schedule) (k : Stand) (h : P s) : P (setupAt key sch s k) :=
  w.setup k _ (w.setSched _ h)

theorem Inner.setupsAtBirth (key : Nat) (h : P s) : P (setupsAtBirth key s) := by
  unfold Machine.setupsAtBirth
  dsimp only
  split
  · exact h
  · rename_i scheduled
    clear scheduled
    generalize List.filter _ Stand.all = l
    induction l generalizing s with
    | nil => exact h
    | cons k l ih => exact ih (w.setupAt _ _ _ h)

theorem Inner.setupAtTail (k : Stand) (key : Nat) (h : P s) : P (setupAtTail k key s) := by
  unfold Machine.setupAtTail
  repeat' split
  all_goals first | exact h | exact w.setupAt _ _ _ h

theorem Inner.birth (kind : Kind) (h : P s) : P (birth kind s) := by
  unfold Machine.birth
  dsimp only
  split
  · exact h
  · rename_i c _
    have born : P (mapCoil c.key (countBirth kind) (Machine.setTrk (bear kind c s.trk) s)) := w.setSched _ (w.setTrk _ h)
    split
    · exact w.setupsAtBirth _ born
    · exact born

theorem Inner.startWatches (k : Stand) (kind : Kind) (h : P s) : P (startWatches k kind s) := by
  unfold Machine.startWatches
  repeat' split
  all_goals first | exact h | exact w.setTrk _ h | exact w.edge _ (w.setTrk _ h)

theorem Inner.markArrival (k : Stand) (g : Seg) (h : P s) : P (markArrival k g s) := by
  unfold Machine.markArrival
  generalize g.kind = kind
  cases kind with
  | head | tail => exact w.setSched _ h
  | body => exact h

theorem Inner.arriveAtStand (k : Stand) (g : Seg) (past : Int) (byLength : Bool) (h : P s) :
    P (arriveAtStand k g past byLength s) := by
  unfold Machine.arriveAtStand
  dsimp only
  have under := w.markArrival k g
    (w.setTrk { ((enterSpan k g past s.trk).closeAcc (.stand k)) with
      underStand := ((enterSpan k g past s.trk).closeAcc (.stand k)).underStand.set k (some g.id) } h)
  generalize Machine.markArrival k g _ = u at *
  have marked : P (if u.blocked k then markOffGauge g.id u else u) := by
    split
    · exact w.setTrk _ under
    · exact under
  generalize (if u.blocked k then markOffGauge g.id u else u) = v at *
  have watched : P (if byLength then Machine.startWatches k g.kind v else v) := by
    split
    · exact w.startWatches _ _ marked
    · exact marked
  generalize (if byLength then Machine.startWatches k g.kind v else v) = x at *
  split
  · exact w.setupAtTail _ _ (w.arrival _ _ watched)
  · exact w.arrival _ _ watched

theorem Inner.monitor (done : Seg) (h : P s) : P (monitor done s) := by
  unfold Machine.monitor
  dsimp only
  split
  · exact h
  · split
    · rename_i admits
      simp only [Bool.and_eq_true, beq_iff_eq] at admits
      obtain ⟨⟨-, active⟩, -⟩ := admits
      have trimmed := w.trim (s.gauge.m + truncDiv (‹Int› * s.gauge.gMon) 256) active h
      split
      · exact trimmed
      · exact w.edge _ trimmed
    · exact h

theorem Inner.completeAtExit (h : P s) : P (completeAtExit s) := by
  unfold Machine.completeAtExit
  dsimp only
  split
  · exact w.setTrk _ h
  · refine w.setTrk _ ?_
    split
    · exact w.setSched _ (w.report _ (w.setTrk _ h))
    · exact w.report _ (w.setTrk _ h)

theorem Inner.offerMonitor (done : Option Seg) (h : P s) : P (offerMonitor done s) := by
  unfold Machine.offerMonitor
  split
  · exact w.monitor _ h
  · exact h

theorem Inner.endCoil (key : Nat) (h : P s) : P (endCoil key s) := by
  unfold Machine.endCoil
  dsimp only
  split
  · exact w.setSched _ h
  · exact w.setSched _ (w.report _ (w.setSched _ h))

theorem Inner.arriveAtExit (g : Seg) (h : P s) : P (arriveAtExit g s) := by
  unfold Machine.arriveAtExit
  dsimp only
  have completed := w.completeAtExit h
  split
  · exact w.inputs _ (w.offerMonitor _ (w.endCoil _ (w.setTrk _ completed)))
  · exact w.inputs _ (w.offerMonitor _ (w.setSched _ (w.setTrk _ completed)))
  · exact w.inputs _ (w.offerMonitor _ (w.setTrk _ completed))

theorem Inner.arrive (k : Span) (g : Seg) (past : Int) (byLength : Bool) (h : P s) : P (arrive k g past byLength s) := by
  unfold Machine.arrive
  split
  · exact w.arriveAtStand _ _ _ _ h
  · exact w.arriveAtExit _ h
  · exact w.arriveAtExit _ h

theorem Inner.stripRises (h : P s) : P (stripRises s) := by
  unfold Machine.stripRises
  dsimp only
  split
  · exact h
  · split
    · exact w.edge _ (w.setTrk _ h)
    · exact w.setTrk _ (w.birth _ (w.setSched _ h))

theorem Inner.stripFalls (h : P s) : P (stripFalls s) := by
  unfold Machine.stripFalls
  dsimp only
  split
  · exact h
  · exact w.setTrk _ h
  · exact w.setTrk _ (w.birth _ h)

theorem Inner.stripDebounced (h : P s) : P (stripDebounced s) := by
  unfold Machine.stripDebounced
  dsimp only
  have taken := w.setTrk { s.trk with strip := s.pins.strip, stripTimer := none } h
  split
  · exact h
  · split
    · exact taken
    · refine w.inputs _ ?_
      split
      · exact w.stripRises taken
      · exact w.stripFalls taken

theorem Inner.channel {c : Channel} {r : ChannelRec} {l : Link} (b o : PerStand Bool) (keeps : KeepsOff (s.chan.recs.get c) r)
    (quiet : QuietLink s.link l) (h : P s) :
    P (handState c { s with chan := { recs := s.chan.recs.set c r, biteIn := b, overload := o }, link := l }) := by
  rw [handState_eq]
  refine w.inputs _ ?_
  have linked : P (Machine.setLink l (toldGauge c (setChannel c r s))) := by
    refine w.link ?_ (w.told keeps h)
    cases c <;> exact quiet
  refine w.untracked ?_ linked
  cases c <;> rfl

/-- What the inner operations keep, a walk keeps. -/
theorem Inner.walk : Walk P where
  toElementary := w.toElementary
  besides same h := w.untracked (by
    have e := congrArg (fun u => ({ u with trk := .reset, sched := .reset } : State)) same
    exact e) h
  channel b o keeps quiet h := w.channel b o keeps quiet h
  track _ h := w.setTrk _ h
  nearer _ _ h := w.setTrk _ h
  front _ _ _ h := w.arrive _ _ _ _ (w.setTrk _ h)
  body _ _ h := w.birth _ h
  debounced h := w.stripDebounced h
  tracking k f _ h := w.untracked (by rfl) h
  load _ _ h := w.setSched _ h
  flush h := w.setSched _ h
end

end Sys2Proof.Machine
end

section
/-! Invariants that do not read the engines, the slots or gauge control: `Gears P` says so, and every operation of the engines and of
gauge control keeps `P`. -/
namespace Sys2Proof.Machine
open Sys2Proof.Safety

/-- The state without the engines, the slots, the reference port, gauge control and what `untracked` leaves out. -/
def State.gearless (s : State) : State :=
  { s.untracked with gauge := .reset, eng := .fill .reset, slots := .fill none, port := .fill { last := none, sends := 0 } }

/-- `P` reads neither the engines nor gauge control, and of the link no more than quiet changes keep. -/
structure Gears (P : State → Prop) : Prop where
  gearless : ∀ {s t}, t.gearless = s.gearless → P s → P t
  link : ∀ {s l}, QuietLink s.link l → P s → P (setLink l s)
  live : ∀ {s x} b, Source.isDerived x = false → P s → P (setLive x b s)

section
variable {P : State → Prop} (w : Gears P) {s : State}
include w

theorem Gears.report (r : Report) (h : P s) : P (report r s) := w.link (quietLink_report _ _) h
theorem Gears.setEngine (k : Stand) (e : Engine) (h : P s) : P (setEngine k e s) := w.gearless (s := s) rfl h
theorem Gears.setSlots (t : PerTag (Option Stand)) (h : P s) : P (setSlots t s) := w.gearless (s := s) rfl h
theorem Gears.setAgc (k : Stand) (g : AgcStand) (h : P s) : P (setAgc k g s) := w.gearless (s := s) rfl h
theorem Gears.deriveAgc (k : Stand) (h : P s) : P (deriveAgc k s) := w.setAgc _ _ h

theorem Gears.freeSlot (tag : Option Tag) (h : P s) : P (freeSlot tag s) := by
  cases tag with
  | none => exact h
  | some t => exact w.setSlots _ h

theorem Gears.clearPosErr (k : Stand) (h : P s) : P (clearPosErr k s) := w.live _ rfl (w.setEngine _ _ h)
theorem Gears.dropActive (k : Stand) (h : P s) : P (dropActive k s) := w.clearPosErr k (w.setEngine _ _ h)

theorem Gears.startMove (k : Stand) (m : Move) (h : P s) : P (startMove k m s) := by
  rw [startMove_eq]
  exact w.setEngine _ _ h

theorem Gears.checkPending (k : Stand) (h : P s) : P (checkPending k s) := by
  rw [checkPending_eq]
  exact w.setEngine _ _ h

theorem Gears.finishMove (k : Stand) (m : Move) (st : MoveStatus) (h : P s) : P (finishMove k m st s) := by
  unfold Machine.finishMove
  dsimp only
  refine w.checkPending k (w.clearPosErr k ?_)
  split
  · exact w.report _ (w.freeSlot _ (w.setEngine _ _ h))
  · exact w.freeSlot _ (w.setEngine _ _ h)

theorem Gears.makeWay (k : Stand) (h : P s) : P (makeWay k s) := by
  unfold Machine.makeWay
  dsimp only
  split
  · exact w.dropActive k (w.setEngine _ _ h)
  · exact w.setEngine _ _ h

theorem Gears.takeMove (k : Stand) (m : Move) (h : P s) : P (takeMove k m s) := by
  unfold Machine.takeMove
  dsimp only
  refine w.deriveAgc k ?_
  split
  · exact w.startMove _ _ (w.makeWay k h)
  · exact w.checkPending k (w.setEngine _ _ (w.makeWay k h))

theorem Gears.issueSetup (k : Stand) (gap : Int) (h : P s) : P (issueSetup k gap s) := by
  unfold Machine.issueSetup
  dsimp only
  repeat' split
  · exact w.report _ h
  · exact w.report _ h
  · exact w.takeMove _ _ h

theorem Gears.takeFeedback (k : Stand) (x : Int) (h : P s) : P (takeFeedback k x s) := by
  unfold Machine.takeFeedback
  dsimp only
  repeat' split
  all_goals first | exact h | exact w.startMove _ _ h

theorem Gears.holdActive (k : Stand) (h : P s) : P (holdActive k s) := by
  unfold Machine.holdActive
  dsimp only
  repeat' split
  all_goals first | exact h | exact w.setEngine _ _ h

theorem Gears.resumeActive (k : Stand) (h : P s) : P (resumeActive k s) := by
  unfold Machine.resumeActive
  dsimp only
  repeat' split
  all_goals first | exact h | exact w.setEngine _ _ h

theorem Gears.flushPending (k : Stand) (l : List Move) (h : P s) : P (flushPending k l s) := by
  induction l generalizing s with
  | nil => exact h
  | cons m rest ih => exact ih (w.report _ (w.freeSlot _ (w.setEngine _ _ h)))

theorem Gears.abortActive (k : Stand) (h : P s) : P (abortActive k s) := by
  unfold Machine.abortActive
  repeat' split
  · exact h
  · exact w.finishMove _ _ _ h
  · exact w.finishMove _ _ _ h
  · exact w.dropActive _ h
  · exact h

theorem Gears.startRetract (k : Stand) (h : P s) : P (startRetract k s) := by
  unfold Machine.startRetract
  dsimp only
  split
  · exact h
  · exact w.startMove _ _ h

theorem Gears.retract (k : Stand) (h : P s) : P (retract k s) :=
  w.deriveAgc k (w.startRetract k (w.flushPending k _ (w.abortActive k h)))

theorem Gears.setRef (k : Stand) (v : Int) (h : P s) : P (setRef k v s) := by
  rw [setRef_eq]
  exact w.gearless (s := s) rfl h

theorem Gears.update (k : Stand) (h : P s) : P (update k s) := by
  unfold Machine.update
  dsimp only
  repeat' split
  all_goals first | exact h | exact w.setRef _ _ (w.setEngine _ _ h)

theorem Gears.cancelPending (k : Stand) (m : Move) (h : P s) : P (cancelPending k m s) :=
  w.deriveAgc k (w.report _ (w.freeSlot _ (w.setEngine _ _ h)))

theorem Gears.clearReference (k : Stand) (h : P s) : P (clearReference k s) := by
  rw [clearReference_eq]
  exact w.gearless (s := s) rfl h

theorem Gears.changeMode (k : Stand) (mode : AgcMode) (h : P s) : P (changeMode k mode s) := by
  unfold Machine.changeMode
  dsimp only
  split
  · exact h
  · exact w.deriveAgc k (w.setAgc _ _ (w.clearReference k h))

theorem Gears.arrivalAtGauge (k : Stand) (g : Seg) (h : P s) : P (arrivalAtGauge k g s) := by
  unfold Machine.arrivalAtGauge headAtGauge bodyAtGauge tailAtGauge
  dsimp only
  split
  · exact w.deriveAgc k (w.setAgc _ _ h)
  · split
    · exact w.gearless (s := s) rfl h
    · exact w.setAgc _ _ h
  · exact w.deriveAgc k (w.setAgc _ _ (w.clearReference k h))

theorem Gears.toldGauge (c : Channel) (h : P s) : P (toldGauge c s) := by
  cases c with
  | force k | position k => exact w.deriveAgc k h
  | entry | exit => exact h
end

/-! ### From `Gears` to a walk -/

/-- `P` does not read the engines, and the operations of the trips and the channels' records keep it. -/
structure Geared (P : State → Prop) : Prop extends Gears P where
  attn : ∀ {s}, P s → P (evalAttn s)
  latch : ∀ {s x}, (s.trips.src.get x).st = .quiet → (s.trips.src.get x).masked = false → P s → P (latch x s)
  again : ∀ {s x}, (s.trips.src.get x).st = .inService → P s → P (setSource x { s.trips.src.get x with rep := true } s)
  ceiling : ∀ {s c}, 2 ≤ c → c ≤ 8 → P s →
    P (evalAttn (Source.all.foldl actIfEligible { s with trips := { s.trips with ceiling := c } }))
  take : ∀ {s x}, selected s = some x → P s → P (take x s)
  ends : ∀ {s x}, x ∈ s.trips.stack ∨ (s.trips.src.get x).st = .inService → P s → P (endService x s)
  clearStop : ∀ {s}, stopActed s = false → P s → P { s with ilk := { s.ilk with stop := false } }
  restart : ∀ {s}, running s = false → P s → P (restartPart s)
  record : ∀ {s c r}, KeepsOff (s.chan.recs.get c) r → P s → P (setChannel c r s)
  inputs : ∀ {s} i, P s → P (derivedConditions { s with trips := { s.trips with inputs := i } })

theorem Geared.inner {P : State → Prop} (w : Geared P) : Inner P where
  link := w.link
  attn := w.attn
  latch := w.latch
  again := w.again
  live := w.live
  ceiling := w.ceiling
  take := w.take
  ends := w.ends
  clearStop := w.clearStop
  restart := w.restart
  record enabled st h := w.record (fun off disabled => by rw [st]; exact off (enabled.symm.trans disabled)) h
  feedback k _ h := w.takeFeedback k _ h
  finish _ _ h := w.deriveAgc _ (w.finishMove _ _ _ h)
  posErr k _ h := w.setEngine k _ h
  update k h := w.update k h
  hold k h := w.holdActive k h
  resume k h := w.resumeActive k h
  cancel _ _ _ h := w.cancelPending _ _ h
  move _ _ _ _ _ h := w.takeMove _ _ (w.setSlots _ h)
  settings _ _ h := w.setEngine _ _ h
  flags k _ _ h := w.setAgc k _ h
  mode k _ h := w.changeMode k _ h
  untracked same h := w.gearless (by
    have e := congrArg (fun u => ({ u with
      gauge := .reset, eng := .fill .reset, slots := .fill none, port := .fill { last := none, sends := 0 } } : State)) same
    exact e) h
  inputs := w.inputs
  told keeps h := w.toldGauge _ (w.record keeps h)
  setup k _ h := w.issueSetup k _ h
  arrival k _ h := w.arrivalAtGauge k _ h
  trim _ _ h := w.gearless (by rfl) h

/-! ### Invariants that do not read the trips -/

/-- The sources with nothing left but the conditions of those the trip controller derives. -/
def derivedLive (src : PerSource SourceRec) : PerSource SourceRec :=
  .ofFn fun x => { SourceRec.reset .edge 0 .alarm with live := Source.isDerived x && (src.get x).live }

theorem derivedLive_set (src : PerSource SourceRec) (x : Source) {r : SourceRec}
    (live : Source.isDerived x = true → r.live = (src.get x).live) : derivedLive (src.set x r) = derivedLive src := by
  refine PerSource.eq_of_get fun y => ?_
  simp only [derivedLive, PerSource.get_ofFn, PerSource.get_set]
  split
  · subst y
    cases derived : Source.isDerived x with
    | false => rfl
    | true => simp [live derived]
  · rfl

/-- The state without the sources but the conditions of those the trip controller derives, the ceiling, the stack, the action sets, the
STOP line and what `gearless` leaves out. -/
def State.tripless (s : State) : State :=
  { s.gearless with
    trips := { s.trips with src := derivedLive s.trips.src, ceiling := 0, stack := [] }
    ilk := { s.gearless.ilk with sets := .fill [], stop := false } }

/-- `P` reads of the trips no more than their inputs with the conditions of the sources they are kept for, and of the link at most the
fill of its queues. -/
structure Tripless (P : State → Prop) : Prop where
  tripless : ∀ {s t}, t.tripless = s.tripless → P s → P t
  link : ∀ {s l}, (s.link.reports.length ≤ 32 → l.reports.length ≤ 32) → l.replies.length ≤ s.link.replies.length → P s →
    P (setLink l s)

/-- `P` is kept by what changes the trips' inputs and the channels' records as well. -/
structure Handed (P : State → Prop) : Prop extends Tripless P where
  record : ∀ {s c r}, KeepsOff (s.chan.recs.get c) r → P s → P (setChannel c r s)
  inputs : ∀ {s} i, P s → P (derivedConditions { s with trips := { s.trips with inputs := i } })
  blocks : ∀ {s}, P s → P (restartBlocks s)

section
variable {P : State → Prop} (w : Tripless P) {s : State}
include w

omit w in
theorem tripless_setSource {x : Source} {r : SourceRec} (live : Source.isDerived x = true → r.live = (s.trips.src.get x).live) :
    (setSource x r s).tripless = s.tripless :=
  congrArg (fun src => ({ s.tripless with trips := { s.tripless.trips with src := src } } : State)) (derivedLive_set _ x live)

theorem Tripless.setSource {x : Source} {r : SourceRec} (live : Source.isDerived x = true → r.live = (s.trips.src.get x).live)
    (h : P s) : P (setSource x r s) := w.tripless (tripless_setSource live) h

theorem Tripless.gears : Gears P where
  gearless same h := w.tripless (by
    have e := congrArg (fun u => ({ u with
      trips := { u.trips with src := derivedLive u.trips.src, ceiling := 0, stack := [] }
      ilk := { u.ilk with sets := .fill [], stop := false } } : State)) same
    exact e) h
  link quiet h := w.link quiet.reports quiet.replies h
  live b own h := w.setSource (fun derived => absurd derived (by simp [own])) h

theorem Tripless.evalAttn (h : P s) : P (evalAttn s) := w.link id (Nat.le_refl _) h

theorem Tripless.applyAt (x : Source) (a : Action) (k : Stand) (h : P s) : P (applyAt x a s k) := by
  unfold Machine.applyAt
  dsimp only
  have entered : P (setActions k (s.ilk.sets.get k ++ [{ source := x, action := a }]) s) := w.tripless (by rfl) h
  generalize setActions k _ s = u at *
  have marked : P (markUnderStand k u) := by
    unfold markUnderStand
    split
    · exact w.tripless (by rfl) entered
    · exact entered
  have retracted : P (if a.isRetractType && !s.retracting k then retract k (markUnderStand k u) else u) := by
    split
    · exact w.gears.retract k marked
    · exact entered
  generalize (if a.isRetractType && !s.retracting k then retract k (markUnderStand k u) else u) = v at *
  have held : P (if a = .hold ∧ !v.retracting k then holdActive k v else v) := by
    split
    · exact w.gears.holdActive k retracted
    · exact retracted
  split
  · exact w.gears.deriveAgc k held
  · exact held

theorem Tripless.applyAction (x : Source) (a : Action) (h : P s) : P (applyAction x a s) := by
  unfold Machine.applyAction
  dsimp only
  have asserted : P (if a = .stop then { s with ilk := { s.ilk with stop := true } } else s) := by
    split
    · exact w.tripless (s := s) rfl h
    · exact h
  generalize (if a = .stop then { s with ilk := { s.ilk with stop := true } } else s) = u at *
  induction scope x generalizing u with
  | nil => exact asserted
  | cons k l ih => exact ih _ (w.applyAt _ _ _ asserted)

theorem Tripless.releaseAction (x : Source) (h : P s) : P (releaseAction x s) := by
  unfold Machine.releaseAction
  induction scope x generalizing s with
  | nil => exact h
  | cons k l ih =>
    refine ih ?_
    unfold releaseAt
    dsimp only
    have left : P (setActions k ((s.ilk.sets.get k).filter fun e => e.source != x) s) := w.tripless (by rfl) h
    split
    · exact left
    · exact w.gears.deriveAgc k (w.gears.checkPending k left)

theorem Tripless.act (x : Source) (h : P s) : P (act x s) := w.applyAction _ _ (w.setSource (fun _ => rfl) h)

theorem Tripless.latch (x : Source) (h : P s) : P (latch x s) := by
  unfold Machine.latch
  dsimp only
  refine w.evalAttn (w.gears.report _ ?_)
  have pending : P (Machine.setSource x { s.trips.src.get x with st := .pending } s) := w.setSource (fun _ => rfl) h
  split
  · exact w.act x pending
  · exact pending

theorem Tripless.latchCheck (x : Source) (h : P s) : P (latchCheck s x) := by
  unfold Machine.latchCheck
  dsimp only
  split
  · exact w.latch x h
  · exact h

theorem Tripless.endService (x : Source) (h : P s) : P (endService x s) := by
  unfold Machine.endService
  dsimp only
  refine w.evalAttn ?_
  have left : P { s with trips := { s.trips with stack := s.trips.stack.filter fun y => y != x } } := w.tripless (s := s) rfl h
  split
  · exact w.gears.report _ (w.setSource (fun _ => rfl) left)
  · exact w.releaseAction x (w.setSource (fun _ => rfl) left)

theorem Tripless.edged : Edged P where
  latch _ _ h := w.latch _ h
  again _ h := w.setSource (fun _ => rfl) h
  live := w.gears.live

omit w in
theorem Handed.geared (w : Handed P) : Geared P where
  toGears := w.gears
  attn h := w.evalAttn h
  latch _ _ h := w.latch _ h
  again _ h := w.setSource (fun _ => rfl) h
  ceiling := by
    intro s c _ _ h
    refine w.evalAttn ?_
    have set : P { s with trips := { s.trips with ceiling := c } } := w.tripless (s := s) rfl h
    generalize ({ s with trips := { s.trips with ceiling := c } } : State) = u at *
    induction Source.all generalizing u with
    | nil => exact set
    | cons x l ih =>
      refine ih _ ?_
      unfold actIfEligible
      dsimp only
      split
      · exact w.act x set
      · exact set
  take := by
    intro s x _ h
    exact w.evalAttn (w.tripless (s := Machine.setSource x { s.trips.src.get x with st := .inService } s) rfl
      (w.setSource (fun _ => rfl) h))
  ends _ h := w.endService _ h
  clearStop := by
    intro s _ h
    exact w.tripless (s := s) rfl h
  restart := by
    intro s _ h
    refine w.evalAttn ?_
    have blocks := w.blocks h
    generalize restartBlocks s = u at *
    induction Source.all generalizing u with
    | nil => exact blocks
    | cons x l ih => exact ih _ (w.latchCheck x blocks)
  record := w.record
  inputs := w.inputs

omit w in
theorem Handed.walk (w : Handed P) : Walk P := w.geared.inner.walk
end

end Sys2Proof.Machine
end

section
/-! The walk from a request or an event to a step, and the first three invariants that need nothing of the engines: the fill of the
link's queues, the lines with the queue of commands, and the conditions the trip controller derives (R110). -/
namespace Sys2Proof.Machine
open Sys2Proof.Safety

/-! ### What is handed on for sources 13 to 15 -/

theorem live_of_derivedLive {a b : PerSource SourceRec} (h : derivedLive a = derivedLive b) {x : Source}
    (derived : Source.isDerived x = true) : (a.get x).live = (b.get x).live := by
  have e := congrArg (fun t => (t.get x).live) h
  simpa [derivedLive, derived] using e

theorem derivedLive_edge (x : Source) (s : State) : derivedLive (edge x s).trips.src = derivedLive s.trips.src := by
  have kept : Tripless fun t => derivedLive t.trips.src = derivedLive s.trips.src :=
    { tripless := fun same h => (congrArg (fun u => u.trips.src) same).trans h
      link := fun _ _ h => h }
  exact kept.edged.edge x rfl

/-- R110: a condition handed on is recorded, and the other derived conditions stay. -/
theorem condition_live (x : Source) (b : Bool) (s : State) {y : Source} (derived : Source.isDerived y = true) :
    ((condition x b s).trips.src.get y).live = if y = x then b else (s.trips.src.get y).live := by
  have set : ((setLive x b s).trips.src.get y).live = if y = x then b else (s.trips.src.get y).live := by
    simp only [setLive_trips, PerSource.get_set]
    split <;> rfl
  unfold condition
  split
  · rename_i same
    split
    · subst y
      exact same
    · rfl
  · split
    · rw [live_of_derivedLive (derivedLive_edge x _) derived, set]
    · exact set

@[simp] theorem condition_inputs (x : Source) (b : Bool) (s : State) : (condition x b s).trips.inputs = s.trips.inputs :=
  inputs_of_calm (calm_condition s x b)

/-- R110: the conditions of sources 13 to 15 are those derived from the inputs kept for them. -/
structure Derived (t : Trips) : Prop where
  exitGauge : t.src.exitGauge.live = t.exitGaugeCond
  entryGauge : t.src.entryGauge.live = t.entryGaugeCond
  channelFault : t.src.channelFault.live = t.channelFaultCond

section
variable {t u : Trips} (same : t.inputs = u.inputs)
include same
theorem exitGaugeCond_congr : t.exitGaugeCond = u.exitGaugeCond := by rw [Trips.exitGaugeCond, same]; rfl
theorem entryGaugeCond_congr : t.entryGaugeCond = u.entryGaugeCond := by rw [Trips.entryGaugeCond, same]; rfl
theorem channelFaultCond_congr : t.channelFaultCond = u.channelFaultCond := by rw [Trips.channelFaultCond, same]; rfl
end

/-- R110: handing the three conditions on brings them to what is derived, whatever they were. -/
theorem derived_derivedConditions (s : State) : Derived (derivedConditions s).trips := by
  have inputs : (derivedConditions s).trips.inputs = s.trips.inputs := inputs_of_calm (calm_derivedConditions s)
  constructor
  · rw [exitGaugeCond_congr inputs, ← PerSource.get_exitGauge]
    simp only [derivedConditions, condition_live _ _ _ (y := .exitGauge) rfl, reduceCtorEq, if_false, if_true]
  · rw [entryGaugeCond_congr inputs, ← PerSource.get_entryGauge]
    simp only [derivedConditions, condition_live _ _ _ (y := .entryGauge) rfl, reduceCtorEq, if_false, if_true]
    exact entryGaugeCond_congr (condition_inputs _ _ _)
  · rw [channelFaultCond_congr inputs, ← PerSource.get_channelFault]
    simp only [derivedConditions, condition_live _ _ _ (y := .channelFault) rfl, if_true]
    exact channelFaultCond_congr (by simp only [condition_inputs])

@[simp] theorem derivedConditions_inputs (s : State) : (derivedConditions s).trips.inputs = s.trips.inputs :=
  inputs_of_calm (calm_derivedConditions s)

/-! ### RESTART's first stage -/

/-- R140: the blocks a restart clears, before the AGC states are derived. -/
def restartCleared (s : State) : State :=
  { s with
    chan := restartChannels s.chan
    counters := .ofFn fun k => restartCounter (s.counters.get k)
    trk := restartTracking s.trk
    sched := { s.sched with coils := [] }
    gauge := { s.gauge with stands := .ofFn fun k => restartAgc (s.gauge.stands.get k), m := 0 }
    trips := restartTrips (restartChannels s.chan) s.trk.strip s.ilk s.trips
    ilk := { s.ilk with sets := .fill [], cause := .restart }
    link := { s.link with reports := [], lost := s.link.lost || !s.link.reports.isEmpty } }

theorem restartBlocks_eq (s : State) : restartBlocks s = Stand.all.foldl (fun u k => deriveAgc k u) (restartCleared s) := rfl

theorem Gears.restartBlocks {P : State → Prop} (w : Gears P) {s : State} (h : P (restartCleared s)) : P (restartBlocks s) := by
  rw [restartBlocks_eq]
  generalize restartCleared s = u at *
  induction Stand.all generalizing u with
  | nil => exact h
  | cons k l ih => exact ih _ (w.deriveAgc k h)

/-! ### The fill of the link's queues (R148, R163) -/

/-- At most 32 reports and at most `n` replies wait. -/
structure LinkRoom (n : Nat) (s : State) : Prop where
  reports : s.link.reports.length ≤ 32
  replies : s.link.replies.length ≤ n

theorem linkRoom_congr {n : Nat} {s t : State} (same : t.link = s.link) (h : LinkRoom n s) : LinkRoom n t :=
  ⟨same ▸ h.reports, same ▸ h.replies⟩

theorem linkRoom_tripless (n : Nat) : Tripless (LinkRoom n) where
  tripless same h := linkRoom_congr (by have e := congrArg State.link same; exact e) h
  link reports replies h := ⟨reports h.reports, Nat.le_trans replies h.replies⟩

theorem linkRoom_handed (n : Nat) : Handed (LinkRoom n) where
  toTripless := linkRoom_tripless n
  record _ h := ⟨h.reports, h.replies⟩
  inputs _ h := (linkRoom_tripless n).edged.derivedConditions (fun _ _ h => ⟨h.reports, h.replies⟩) ⟨h.reports, h.replies⟩
  blocks h := (linkRoom_tripless n).gears.restartBlocks ⟨Nat.zero_le _, h.replies⟩

/-- No owner of a request adds to the reply list. -/
structure RepliesAtMost (n : Nat) (s : State) : Prop where
  replies : s.link.replies.length ≤ n

theorem repliesAtMost_congr {n : Nat} {s t : State} (same : t.link.replies = s.link.replies) (h : RepliesAtMost n s) :
    RepliesAtMost n t := ⟨same ▸ h.replies⟩

theorem repliesAtMost_tripless (n : Nat) : Tripless (RepliesAtMost n) where
  tripless same h := repliesAtMost_congr (by have e := congrArg (fun u => u.link.replies) same; exact e) h
  link _ replies h := ⟨Nat.le_trans replies h.replies⟩

theorem repliesAtMost_handed (n : Nat) : Handed (RepliesAtMost n) where
  toTripless := repliesAtMost_tripless n
  record _ h := ⟨h.replies⟩
  inputs _ h := (repliesAtMost_tripless n).edged.derivedConditions (fun _ _ h => ⟨h.replies⟩) ⟨h.replies⟩
  blocks h := (repliesAtMost_tripless n).gears.restartBlocks ⟨h.replies⟩

/-! ### From a walk to a step -/

/-- What keeps `P` beyond the elementary operations where a command changes no line: a reply that joins, and SET_SOURCE with its latching
check. -/
structure Answers (P : State → Prop) : Prop extends Walk P where
  reply : ∀ {s} r, s.link.replies.length < 8 → P s → P (addReply r s)
  source : ∀ {s x} r mode priority action masked, s.link.replies.length < 8 → (s.trips.src.get x).st = .quiet → P s →
    P (evalAttn (latchCheck
      (addReply r (setSource x (storedSource (s.trips.src.get x) mode priority action masked) s)) x))

/-- `P` is kept by the lines, the resets, the queue of commands and the passing of time as well. -/
structure Steps (P : State → Prop) : Prop extends Answers P where
  lines : ∀ {s} b e, P s → P { s with pins := { s.pins with strip := b, estopLow := e } }
  queue : ∀ {s} l, P s → P { s with pending := l }
  reset : ∀ {s} cause b, P s → P (leaveReset cause { s with pins := { s.pins with reset := b } })
  held : ∀ {s}, P s → P (holdInReset s)
  time : ∀ {s}, s.pins.reset = false → P s → P (millisecond s)

/-- The commands that change a line or are a reset. -/
def Instr.changesLine : Instr → Bool
  | .stripPresentChange _ | .estopInputChange _ _ | .powerOnReset | .resetAsserted | .resetReleased => true
  | _ => false

/-- R148, R151: a request's command is its frame, received and handed to its owner (log 4). -/
theorem exec_request {i : Instr} {type tag : Byte} {p : List Byte} {s : State} (wf : i.wf = true)
    (parts : requestParts? i = some (type, tag, p)) (known : isRequestType type = true) :
    exec i s = .next (request type tag (ownerOf i) s) := by
  cases i with
  | unknownRequest type' tag' p' =>
    cases parts
    simp [Instr.wf, known] at wf
  | _ =>
    cases parts
    all_goals rfl

section
variable {P : State → Prop}

/-- R142, R148, R149: a frame is received where the reply list has room for its reply. -/
theorem Walk.receiveFrame (w : Walk P) {handle : State → State} {s : State} (h : P s)
    (handled : ∀ u, u.link.replies.length < 8 → P u → P (handle u)) : P (receiveFrame handle s) := by
  unfold Machine.receiveFrame
  dsimp only
  split
  · exact h
  · have heard : P (restartSupervision s) := by
      unfold restartSupervision
      split
      · exact w.startSupervision h
      · exact h
    split
    · exact heard
    · rename_i room
      exact handled _ (Nat.lt_of_not_le room) heard

variable (w : Answers P) {s : State}
include w

/-- R151, R152: a request is answered by its owner, or with RANGE for its tag. -/
theorem Answers.decode (type tag : Byte) (i : Instr) (room : s.link.replies.length < 8) (h : P s) :
    P (decode type tag (ownerOf i) s) := by
  unfold Machine.decode
  dsimp only
  split
  · exact w.reply _ room h
  · cases isSet : Instr.isSetSource i with
    | false =>
      rw [followUp_of_other i isSet]
      have kept : RepliesAtMost 7 (ownerOf i s).state := (repliesAtMost_handed 7).walk.answer i isSet ⟨Nat.lt_succ_iff.mp room⟩
      exact w.reply _ (Nat.lt_succ_of_le kept.replies) (w.answer i isSet h)
    | true =>
      cases i with
      | setSource tag f =>
        simp only [ownerOf, answerSetSource]
        split
        · split
          · exact w.reply _ room h
          · rename_i quiet
            exact w.source _ _ _ _ _ room (Decidable.of_not_not quiet) h
        · exact w.reply _ room h
      | _ => simp [Instr.isSetSource] at isSet

theorem Answers.decodeFrame (type tag : Byte) (p : List Byte) (room : s.link.replies.length < 8) (h : P s) :
    P (decodeFrame type tag p s) := by
  unfold Machine.decodeFrame turnAway
  split
  · exact w.reply _ room h
  · split
    · exact w.reply _ room h
    · exact w.decode _ _ _ room h

theorem Answers.request (type tag : Byte) (i : Instr) (h : P s) : P (request type tag (ownerOf i) s) :=
  w.receiveFrame h fun _ room hu => w.decode type tag i room hu

theorem Answers.setRx (rx : Rx) (gap : Option Nat) (h : P s) : P (setRx rx gap s) := w.link ⟨rfl, id, Nat.le_refl _⟩ h

theorem Answers.takeByte (b : Byte) (h : P s) : P (takeByte b s) := by
  unfold Machine.takeByte
  dsimp only
  split
  · split
    · exact w.setRx _ _ h
    · exact h
  · split
    · exact w.setRx _ _ h
    · exact w.setRx _ _ h
  · exact w.setRx _ _ h
  · exact w.setRx _ _ h
  · split
    · exact w.receiveFrame (w.setRx _ _ h) fun _ room hu => w.decodeFrame _ _ _ room hu
    · exact w.setRx _ _ h

theorem Answers.supervisionExpires (h : P s) : P (supervisionExpires s) := by
  unfold Machine.supervisionExpires
  split
  · exact h
  · have stopped : P (setLink { s.link with supLeft := none } s) := w.link ⟨rfl, id, Nat.le_refl _⟩ h
    exact w.edge _ (w.besides (s := setLink { s.link with supLeft := none } s) rfl stopped)

theorem Answers.estopDebounced (e : EStop) (h : P s) : P (estopDebounced e s) := by
  unfold Machine.estopDebounced
  dsimp only
  split
  · exact h
  · exact w.condition _ rfl (w.besides (s := s) rfl h)

theorem Answers.settleTimeout (k : Stand) (h : P s) : P (settleTimeout k s) := by
  unfold Machine.settleTimeout
  dsimp only
  split
  · rename_i act _
    exact w.finish _ (by rw [act]; rfl) h
  · exact h

theorem Answers.landRamp (k : Stand) (h : P s) : P (landRamp k s) := by
  unfold Machine.landRamp
  dsimp only
  repeat' split
  all_goals first | exact h | exact w.update k h

omit w in
theorem unlessHeld_keeps {f : State → State} (h : P s) (taken : P (f s)) : P (unlessHeld f s) := by
  unfold unlessHeld
  split
  · exact h
  · exact taken

/-- Every command that changes no line keeps what the elementary operations and the replies keep. -/
theorem Answers.exec (c : Instr) {t : State} (notLine : Instr.changesLine c = false) (run : exec c s = .next t) (h : P s) : P t := by
  have taken {u : State} (hu : P u) (e : Host.Outcome.next (φ := Fault) (ρ := Refusal) u = .next t) : P t := by
    cases e
    exact hu
  cases c with
  | stripPresentChange | estopInputChange | powerOnReset | resetAsserted | resetReleased => cases notLine
  | unknownRequest type tag p =>
    simp only [Machine.exec, execUnknownRequest] at run
    split at run
    · cases run
    · split at run
      · cases run
      · exact taken (w.receiveFrame h fun _ room hu => w.reply _ room hu) run
  | receiveByte b => exact taken (unlessHeld_keeps h (w.takeByte b h)) run
  | lineBreak =>
    refine taken (unlessHeld_keeps h ?_) run
    split
    · exact h
    · exact w.setRx _ _ h
  | byteGapExpiry =>
    refine taken (unlessHeld_keeps h ?_) run
    split
    · exact w.setRx _ _ h
    · exact h
  | supervisionExpiry => exact taken (unlessHeld_keeps h (w.supervisionExpires h)) run
  | transmitDone => exact taken (unlessHeld_keeps h (w.link (quietLink_next _) h)) run
  | sample n raw valid =>
    simp only [Machine.exec, execSample] at run
    split at run
    · exact taken (unlessHeld_keeps h (w.takeSample _ raw valid h)) run
    · exact taken h run
  | staleTimerExpiry c => exact taken (unlessHeld_keeps h (w.staleExpires c h)) run
  | pulse k => exact taken (unlessHeld_keeps h (w.takePulse k h)) run
  | count k => exact taken (unlessHeld_keeps h (w.completeCount k h)) run
  | headWatchExpiry k =>
    refine taken (unlessHeld_keeps h ?_) run
    split
    · exact w.headWatchRunsOut k h
    · exact h
  | tailWatchExpiry k =>
    refine taken (unlessHeld_keeps h ?_) run
    split
    · exact w.tailWatchRunsOut k h
    · exact h
  | stripPresentDebounceExpiry => exact taken (unlessHeld_keeps h (w.debounced h)) run
  | estopDebounceExpiry e => exact taken (unlessHeld_keeps h (w.estopDebounced e h)) run
  | updateExpiry k => exact taken (unlessHeld_keeps h (w.update k h)) run
  | rampDone k => exact taken (unlessHeld_keeps h (w.landRamp k h)) run
  | settleTimerExpiry k => exact taken (unlessHeld_keeps h (w.settleTimeout k h)) run
  | _ =>
    rw [exec_request rfl rfl rfl] at run
    exact taken (w.request _ _ _ h) run
end

section
variable {P : State → Prop} (w : Steps P) {s : State}
include w

/-- Every command keeps what the elementary operations, the replies, the lines and the resets keep. -/
theorem Steps.exec (c : Instr) {t : State} (run : exec c s = .next t) (h : P s) : P t := by
  have taken {u : State} (hu : P u) (e : Host.Outcome.next (φ := Fault) (ρ := Refusal) u = .next t) : P t := by
    cases e
    exact hu
  cases c with
  | stripPresentChange b =>
    simp only [Machine.exec, execStripPresentChange] at run
    split at run
    · exact taken h run
    · have line : P { s with pins := { s.pins with strip := b } } := w.lines b s.pins.estopLow h
      exact taken (unlessHeld_keeps (f := stripRawChanged) line (w.track (by rfl) line)) run
  | estopInputChange e low =>
    simp only [Machine.exec, execEstopInputChange] at run
    split at run
    · exact taken h run
    · have line : P { s with pins := { s.pins with estopLow := s.pins.estopLow.set e low } } := w.lines s.pins.strip _ h
      exact taken (unlessHeld_keeps (f := estopRawChanged e) line (w.besides (by rfl) line)) run
  | powerOnReset => exact taken (w.reset .power s.pins.reset h) run
  | resetAsserted => exact taken (w.held h) run
  | resetReleased =>
    refine taken (u := if s.pins.reset then _ else s) ?_ run
    split
    · exact w.reset .line false h
    · exact h
  | _ => exact w.toAnswers.exec _ rfl run h

/-- Every step keeps what the elementary operations keep. -/
theorem Steps.step {t : State} (run : step s = .next t) (h : P s) : P t := by
  unfold Machine.step at run
  split at run
  · exact w.exec _ run (w.queue _ h)
  · cases run
    cases held : s.pins.reset with
    | false => exact w.time held h
    | true =>
      rw [millisecond, if_pos held]
      exact h
end

end Sys2Proof.Machine
end

section
/-! Invariants that read the engines, the slots, the action sets and gauge control but not the trips: `Stands P`; and among them those that
read the engines and the slots alone: `EnginesAlone P`. -/
namespace Sys2Proof.Machine
open Sys2Proof.Safety

/-- The state without the trips, the STOP line, the link and what `untracked` leaves out. -/
def State.standsOnly (s : State) : State :=
  { s.untracked with trips := .reset, ilk := { s.untracked.ilk with stop := false }, link := .reset .mbit1 }

/-- `P` reads neither the trips nor the link, and the operations on stands keep it. -/
structure Stands (P : State → Prop) : Prop where
  standsOnly : ∀ {s t}, t.standsOnly = s.standsOnly → P s → P t
  applyAt : ∀ {s} x a k, P s → P (applyAt x a s k)
  releaseAt : ∀ {s} x k, P s → P (releaseAt x s k)
  blocks : ∀ {s}, running s = false → P s → P (restartBlocks s)
  record : ∀ {s c r}, r.st = (s.chan.recs.get c).st → P s → P (setChannel c r s)
  told : ∀ {s} c r, P s → P (toldGauge c (setChannel c r s))
  setup : ∀ {s} k gap, P s → P (issueSetup k gap s)
  feedback : ∀ {s} k x, P s → P (takeFeedback k (clamp (s.eng.get k).cfg.gapMin (s.eng.get k).cfg.gapMax x) s)
  finish : ∀ {s k a} st, (s.eng.get k).act.active? = some a → P s → P (deriveAgc k (finishMove k a.move st s))
  posErr : ∀ {s} k n, P s → P (setEngine k { s.eng.get k with posErr := n } s)
  update : ∀ {s} k, P s → P (update k s)
  hold : ∀ {s} k, P s → P (holdActive k s)
  resume : ∀ {s} k, P s → P (resumeActive k s)
  cancel : ∀ {s k t m}, s.slots.get t = some k → ((s.eng.get k).act.active?.filter fun a => a.move.tag == some t) = none →
    ((s.eng.get k).pending.find? fun m => m.tag == some t) = some m → P s → P (cancelPending k m s)
  move : ∀ {s k t target} rate, inWindow (s.eng.get k).cfg (uint target) → s.retracting k = false → s.slots.get t = none →
    (s.eng.get k).pending.length < 4 → P s → P (takeMove k (linkMove t target rate) (setSlots (s.slots.set t (some k)) s))
  settings : ∀ {s k f}, inWindow (clampedCfg f) (s.eng.get k).ref → (s.eng.get k).atRest = true → P s →
    P (setEngine k { s.eng.get k with cfg := clampedCfg f } s)
  flags : ∀ {s} k a b, P s → P (setAgc k { s.gauge.stands.get k with stepLimited := a, atLimit := b } s)
  mode : ∀ {s} k mode, P s → P (changeMode k mode s)
  arrival : ∀ {s} k g, P s → P (arrivalAtGauge k g s)
  trim : ∀ {s} m, (s.gauge.stands.get .s6).st = .active → P s → P { s with gauge := { s.gauge with m := clamp (-2000) 2000 m } }

section
variable {P : State → Prop} (w : Stands P) {s : State}
include w

theorem Stands.setSource (x : Source) (r : SourceRec) (h : P s) : P (setSource x r s) := w.standsOnly (s := s) rfl h
theorem Stands.setTrips (t : Trips) (h : P s) : P { s with trips := t } := w.standsOnly (s := s) rfl h
theorem Stands.setLink (l : Link) (h : P s) : P (setLink l s) := w.standsOnly (s := s) rfl h

theorem Stands.applyAction (x : Source) (a : Action) (h : P s) : P (applyAction x a s) := by
  unfold Machine.applyAction
  dsimp only
  have asserted : P (if a = .stop then { s with ilk := { s.ilk with stop := true } } else s) := by
    split
    · exact w.standsOnly (s := s) rfl h
    · exact h
  generalize (if a = .stop then { s with ilk := { s.ilk with stop := true } } else s) = u at *
  induction scope x generalizing u with
  | nil => exact asserted
  | cons k l ih => exact ih _ (w.applyAt _ _ _ asserted)

theorem Stands.releaseAction (x : Source) (h : P s) : P (releaseAction x s) := by
  unfold Machine.releaseAction
  induction scope x generalizing s with
  | nil => exact h
  | cons k l ih => exact ih (w.releaseAt _ _ h)

theorem Stands.act (x : Source) (h : P s) : P (act x s) := w.applyAction _ _ (w.setSource _ _ h)

theorem Stands.latch (x : Source) (h : P s) : P (latch x s) := by
  unfold Machine.latch
  dsimp only
  refine w.setLink _ (w.setLink _ ?_)
  split
  · exact w.act x (w.setSource _ _ h)
  · exact w.setSource _ _ h

theorem Stands.edged : Edged P where
  latch _ _ h := w.latch _ h
  again _ h := w.setSource _ _ h
  live _ _ h := w.setSource _ _ h

theorem Stands.endService (x : Source) (h : P s) : P (endService x s) := by
  unfold Machine.endService
  dsimp only
  refine w.setLink _ ?_
  split
  · exact w.setLink _ (w.setSource _ _ (w.setTrips _ h))
  · exact w.releaseAction x (w.setSource _ _ (w.setTrips _ h))

theorem Stands.inner : Inner P where
  toEdged := w.edged
  link _ h := w.setLink _ h
  attn h := w.setLink _ h
  ceiling := by
    intro s c _ _ h
    refine w.setLink _ ?_
    have set : P { s with trips := { s.trips with ceiling := c } } := w.setTrips _ h
    generalize ({ s with trips := { s.trips with ceiling := c } } : State) = u at *
    induction Source.all generalizing u with
    | nil => exact set
    | cons x l ih =>
      refine ih _ ?_
      unfold actIfEligible
      dsimp only
      split
      · exact w.act x set
      · exact set
  take _ h := w.setLink _ (w.setTrips _ (w.setSource _ _ h))
  ends _ h := w.endService _ h
  clearStop := by
    intro s _ h
    exact w.standsOnly (s := s) rfl h
  restart := by
    intro s rest h
    refine w.setLink _ ?_
    have blocks := w.blocks rest h
    generalize restartBlocks s = u at *
    induction Source.all generalizing u with
    | nil => exact blocks
    | cons x l ih => exact ih _ (w.edged.latchCheck x blocks)
  record _ := w.record
  feedback := w.feedback
  finish := w.finish
  posErr := w.posErr
  update := w.update
  hold := w.hold
  resume := w.resume
  cancel := w.cancel
  move := w.move
  settings := w.settings
  flags := w.flags
  mode := w.mode
  untracked same h := w.standsOnly (by
    have e := congrArg (fun u => ({ u with trips := .reset, ilk := { u.ilk with stop := false }, link := .reset .mbit1 } : State)) same
    exact e) h
  inputs _ h := w.edged.derivedConditions (fun _ _ h => w.setSource _ _ h) (w.setTrips _ h)
  told _ h := w.told _ _ h
  setup := w.setup
  arrival := w.arrival
  trim := w.trim
end

/-! ### Invariants of the engines and the slots -/

/-- `P` reads the engines and the slots alone, and the operations of the engines keep it. -/
structure EnginesAlone (P : State → Prop) : Prop where
  congr : ∀ {s t}, t.eng = s.eng → t.slots = s.slots → P s → P t
  checkPending : ∀ {s} k, P s → P (checkPending k s)
  retract : ∀ {s k}, s.retracting k = true → P s → P (retract k s)
  setup : ∀ {s} k gap, P s → P (issueSetup k gap s)
  feedback : ∀ {s} k x, P s → P (takeFeedback k (clamp (s.eng.get k).cfg.gapMin (s.eng.get k).cfg.gapMax x) s)
  finish : ∀ {s k a} st, (s.eng.get k).act.active? = some a → P s → P (finishMove k a.move st s)
  posErr : ∀ {s} k n, P s → P (setEngine k { s.eng.get k with posErr := n } s)
  update : ∀ {s} k, P s → P (update k s)
  hold : ∀ {s} k, P s → P (holdActive k s)
  resume : ∀ {s} k, P s → P (resumeActive k s)
  cancel : ∀ {s k t m}, s.slots.get t = some k → ((s.eng.get k).act.active?.filter fun a => a.move.tag == some t) = none →
    ((s.eng.get k).pending.find? fun m => m.tag == some t) = some m → P s → P (cancelPending k m s)
  move : ∀ {s k t target} rate, inWindow (s.eng.get k).cfg (uint target) → s.slots.get t = none →
    (s.eng.get k).pending.length < 4 → P s → P (takeMove k (linkMove t target rate) (setSlots (s.slots.set t (some k)) s))
  settings : ∀ {s k f}, inWindow (clampedCfg f) (s.eng.get k).ref → (s.eng.get k).atRest = true → P s →
    P (setEngine k { s.eng.get k with cfg := clampedCfg f } s)

theorem retracting_setActions (k : Stand) (x : Source) (a : Action) (s : State) :
    (setActions k (s.ilk.sets.get k ++ [{ source := x, action := a }]) s).retracting k =
      (s.retracting k || a.isRetractType) := by
  simp [State.retracting, setActions]

@[simp] theorem markUnderStand_eng (k : Stand) (s : State) : (markUnderStand k s).eng = s.eng := by
  unfold markUnderStand; split <;> rfl
@[simp] theorem markUnderStand_slots (k : Stand) (s : State) : (markUnderStand k s).slots = s.slots := by
  unfold markUnderStand; split <;> rfl
@[simp] theorem markUnderStand_ilk (k : Stand) (s : State) : (markUnderStand k s).ilk = s.ilk := by
  unfold markUnderStand; split <;> rfl

theorem arrivalAtGauge_engines (k : Stand) (g : Seg) (s : State) :
    (arrivalAtGauge k g s).eng = s.eng ∧ (arrivalAtGauge k g s).slots = s.slots := by
  unfold arrivalAtGauge headAtGauge bodyAtGauge tailAtGauge
  simp only [clearReference_eq]
  repeat' split
  all_goals exact ⟨rfl, rfl⟩

theorem EnginesAlone.stands {P : State → Prop} (w : EnginesAlone P) : Stands P where
  standsOnly same h := w.congr (by have e := congrArg State.eng same; exact e) (by have e := congrArg State.slots same; exact e) h
  applyAt := by
    intro s x a k h
    have entered : P (setActions k (s.ilk.sets.get k ++ [{ source := x, action := a }]) s) := w.congr (s := s) rfl rfl h
    have retracting := retracting_setActions k x a s
    unfold Machine.applyAt
    dsimp only
    generalize setActions k _ s = u at *
    have retracted : P (if a.isRetractType && !s.retracting k then Machine.retract k (markUnderStand k u) else u) := by
      split
      · rename_i first
        refine w.retract ?_ (w.congr (by simp) (by simp) entered)
        rw [retracting_congr (t := u) (by simp), retracting]
        simp_all
      · exact entered
    generalize (if a.isRetractType && !s.retracting k then Machine.retract k (markUnderStand k u) else u) = v at *
    have held : P (if a = .hold ∧ !v.retracting k then holdActive k v else v) := by
      split
      · exact w.hold k retracted
      · exact retracted
    split
    · exact w.congr (by rfl) (by rfl) held
    · exact held
  releaseAt := by
    intro s x k h
    have left : P (setActions k ((s.ilk.sets.get k).filter fun e => e.source != x) s) := w.congr (s := s) rfl rfl h
    unfold Machine.releaseAt
    dsimp only
    split
    · exact left
    · exact w.congr (by rfl) (by rfl) (w.checkPending k left)
  blocks := by
    intro s _ h
    have cleared : P (restartCleared s) := w.congr (s := s) rfl rfl h
    rw [restartBlocks_eq]
    generalize restartCleared s = u at *
    induction Stand.all generalizing u with
    | nil => exact cleared
    | cons k l ih => exact ih _ (w.congr (s := u) rfl rfl cleared)
  record _ h := w.congr (by rfl) (by rfl) h
  told c r h := by
    cases c <;> exact w.congr (by rfl) (by rfl) h
  setup := w.setup
  feedback := w.feedback
  finish st active h := w.congr (by rfl) (by rfl) (w.finish st active h)
  posErr := w.posErr
  update := w.update
  hold := w.hold
  resume := w.resume
  cancel := w.cancel
  move rate inside _ free room h := w.move rate inside free room h
  settings := w.settings
  flags _ _ _ h := w.congr (by rfl) (by rfl) h
  mode k mode h := by
    unfold changeMode
    dsimp only
    rw [clearReference_eq]
    split
    · exact h
    · exact w.congr (by rfl) (by rfl) h
  arrival k g h := w.congr (arrivalAtGauge_engines k g _).1 (arrivalAtGauge_engines k g _).2 h
  trim _ _ h := w.congr (by rfl) (by rfl) h

end Sys2Proof.Machine
end

section
/-! Every engine's reference and targets stay in its window (R85, R87, R89, R96, R104). -/
namespace Sys2Proof.Machine
open Sys2Proof.Safety

/-! ### What the engines' operations leave of the engines and the slots -/

@[simp] theorem freeSlot_eng (tag : Option Tag) (s : State) : (freeSlot tag s).eng = s.eng := by cases tag <;> rfl
@[simp] theorem reportMove_eng (k : Stand) (m : Move) (st : MoveStatus) (s : State) : (reportMove k m st s).eng = s.eng := rfl
@[simp] theorem reportMove_slots (k : Stand) (m : Move) (st : MoveStatus) (s : State) :
    (reportMove k m st s).slots = s.slots := rfl
@[simp] theorem deriveAgc_eng (k : Stand) (s : State) : (deriveAgc k s).eng = s.eng := rfl
@[simp] theorem deriveAgc_slots (k : Stand) (s : State) : (deriveAgc k s).slots = s.slots := rfl

/-- An engine whose active move has ended: IDLE, its settle timer stopped and its position-error count 0. -/
def Engine.ended (e : Engine) (retracted : Bool) : Engine :=
  { e with act := .idle, settleLeft := none, posErr := 0, retracted := retracted }

theorem dropActive_eng (k : Stand) (s : State) :
    (dropActive k s).eng = s.eng.set k ((s.eng.get k).ended (s.eng.get k).retracted) := by
  simp [dropActive, clearPosErr, Engine.ended]

/-- R91, steps 1 to 4: the move has ended, its slot is free, it is reported and the position errors cleared. -/
def finished (k : Stand) (m : Move) (st : MoveStatus) (s : State) : State :=
  let e := s.eng.get k
  let s := setEngine k { e with act := .idle, settleLeft := none, retracted := e.retracted || m.origin == .retract } s
  let s := freeSlot m.tag s
  clearPosErr k (if m.origin = .setup ∨ m.origin = .link then reportMove k m st s else s)

theorem finishMove_eq (k : Stand) (m : Move) (st : MoveStatus) (s : State) :
    finishMove k m st s = checkPending k (finished k m st s) := rfl

theorem finished_eng (k : Stand) (m : Move) (st : MoveStatus) (s : State) :
    (finished k m st s).eng =
      s.eng.set k ((s.eng.get k).ended ((s.eng.get k).retracted || m.origin == .retract)) := by
  unfold finished
  dsimp only
  split <;> simp [clearPosErr, Engine.ended]

theorem finished_slots (k : Stand) (m : Move) (st : MoveStatus) (s : State) :
    (finished k m st s).slots = (freeSlot m.tag s).slots := by
  unfold finished
  dsimp only
  split <;> cases m.tag <;> rfl

@[simp] theorem finished_ilk (k : Stand) (m : Move) (st : MoveStatus) (s : State) : (finished k m st s).ilk = s.ilk := by
  unfold finished
  dsimp only
  split <;> cases m.tag <;> rfl

/-- R93: the engine that makes way for a new move. -/
def Engine.givenWay (e : Engine) : Engine :=
  if e.act.isOf .feedback then e.ended false else { e with retracted := false }

theorem makeWay_eng (k : Stand) (s : State) : (makeWay k s).eng = s.eng.set k (s.eng.get k).givenWay := by
  unfold makeWay Engine.givenWay
  dsimp only
  simp only [setEngine_eng, PerStand.get_set_self]
  split
  · rw [dropActive_eng]
    simp [Engine.ended]
  · rfl

@[simp] theorem makeWay_slots (k : Stand) (s : State) : (makeWay k s).slots = s.slots := by
  unfold makeWay
  dsimp only
  split <;> rfl

theorem setRef_eng (k : Stand) (v : Int) (s : State) : (setRef k v s).eng = s.eng.set k { s.eng.get k with ref := v } := by
  rw [setRef_eq]

@[simp] theorem setRef_slots (k : Stand) (v : Int) (s : State) : (setRef k v s).slots = s.slots := by rw [setRef_eq]

/-! ### One engine -/

/-- R89: a started move takes no more updates than its distance needs. -/
theorem onRamp_updatesFor (ref : Int) (m : Move) : onRamp ref { move := m, remaining := updatesFor (m.target - ref).natAbs m.step } := by
  unfold onRamp
  cases step : m.step with
  | zero => exact .inl (by simp [updatesFor])
  | succ n => exact (updatesFor_least _ (n + 1) (Nat.succ_pos n)).2

end Sys2Proof.Machine

namespace Sys2Proof.Safety
open Sys2Proof.Machine

/-- An engine stays well where nothing of its moves changes but that some are gone. -/
theorem EngineOk.of_fewer {e e' : Engine} (ok : EngineOk e) (cfg : e'.cfg = e.cfg) (ref : e'.ref = e.ref)
    (active : ∀ a, e'.act.active? = some a → e.act.active? = some a) (pending : e'.pending.Sublist e.pending) :
    EngineOk e' where
  window := cfg ▸ ok.window
  ref := by rw [cfg, ref]; exact ok.ref
  active a ha := by rw [cfg, ref]; exact ok.active a (active a ha)
  pending m hm := by rw [cfg]; exact ok.pending m (pending.subset hm)
  room := Nat.le_trans pending.length_le ok.room

theorem EngineOk.ended {e : Engine} (ok : EngineOk e) (retracted : Bool) : EngineOk (e.ended retracted) :=
  ok.of_fewer rfl rfl (fun _ none => by cases none) (List.Sublist.refl _)

theorem EngineOk.givenWay {e : Engine} (ok : EngineOk e) : EngineOk e.givenWay := by
  unfold Engine.givenWay
  split
  · exact ok.ended false
  · exact ok.of_fewer rfl rfl (fun _ => id) (List.Sublist.refl _)

theorem EngineOk.started {e : Engine} (ok : EngineOk e) {m : Move} (target : inWindow e.cfg m.target) {act : Activity}
    {left : Option Nat} (active : act.active? = some { move := m, remaining := updatesFor (m.target - e.ref).natAbs m.step }) :
    EngineOk { e with act := act, settleLeft := left } where
  window := ok.window
  ref := ok.ref
  active a ha := by
    cases active.symm.trans ha
    exact ⟨target, onRamp_updatesFor e.ref m⟩
  pending := ok.pending
  room := ok.room

end Sys2Proof.Safety

namespace Sys2Proof.Machine
open Sys2Proof.Safety

/-- R89: one step of a ramp with more than one update left brings the reference nearer to the target and not past it. -/
theorem ramp_steps {e : Engine} (ok : EngineOk e) {a : Active} (act : e.act = .ramping a) (more : 1 < a.remaining) :
    let v := if e.ref < a.move.target then e.ref + a.move.step else e.ref - a.move.step
    inWindow e.cfg v ∧ onRamp v { a with remaining := a.remaining - 1 } := by
  obtain ⟨target, ramp⟩ := ok.active a (by rw [act]; rfl)
  have within := ok.ref
  obtain ⟨n, remaining⟩ : ∃ n, a.remaining = n + 2 := ⟨a.remaining - 2, by omega⟩
  simp only [onRamp, inWindow, remaining] at *
  have far : n * a.move.step + a.move.step < (a.move.target - e.ref).natAbs := by
    have := ramp.resolve_left (by omega)
    rwa [show n + 2 - 1 = n + 1 from rfl, Nat.add_mul, Nat.one_mul] at this
  simp only [show n + 2 - 1 - 1 = n from rfl]
  generalize n * a.move.step = travel at far ⊢
  split
  · exact ⟨by omega, .inr (by omega)⟩
  · exact ⟨by omega, .inr (by omega)⟩

/-! ### All engines -/

theorem enginesOk_setEngine {s t : State} {k : Stand} {e : Engine} (h : EnginesOk s)
    (eng : t.eng = s.eng.set k e) (ok : EngineOk e) : EnginesOk t := by
  intro j
  rw [eng, PerStand.get_set]
  split
  · exact ok
  · exact h j

theorem enginesOk_startMove {s : State} {k : Stand} {m : Move} (h : EnginesOk s) (target : inWindow (s.eng.get k).cfg m.target) :
    EnginesOk (startMove k m s) := by
  unfold startMove
  dsimp only
  split
  · rename_i covered
    exact enginesOk_setEngine h rfl ((h k).started target (by rw [covered]; rfl))
  · exact enginesOk_setEngine h rfl ((h k).started target rfl)

theorem enginesOk_checkPending {s : State} (k : Stand) (h : EnginesOk s) : EnginesOk (checkPending k s) := by
  unfold checkPending
  dsimp only
  split
  · exact h
  · rename_i m rest pending
    split
    · have ok := h k
      refine enginesOk_startMove (enginesOk_setEngine h rfl (ok.of_fewer rfl rfl (fun _ => id) ?_)) ?_
      · rw [pending]
        exact List.sublist_cons_self m rest
      · simpa using (ok.pending m (by rw [pending]; exact List.mem_cons_self)).2
    · exact h

theorem enginesOk_finishMove {s : State} {k : Stand} {m : Move} (st : MoveStatus) (h : EnginesOk s) :
    EnginesOk (finishMove k m st s) := by
  rw [finishMove_eq]
  exact enginesOk_checkPending k (enginesOk_setEngine h (finished_eng k m st s) ((h k).ended _))

theorem enginesOk_takeMove {s : State} {k : Stand} {m : Move} (h : EnginesOk s) (waits : mayWait (s.eng.get k).cfg m)
    (room : (s.eng.get k).pending.length < 4) : EnginesOk (takeMove k m s) := by
  have way : EnginesOk (makeWay k s) := enginesOk_setEngine h (makeWay_eng k s) (h k).givenWay
  have cfg : ((makeWay k s).eng.get k).cfg = (s.eng.get k).cfg := (engine_of_calm (calm_makeWay k s) k).2
  rw [← cfg] at waits
  have pending := makeWay_pending k s
  unfold takeMove
  dsimp only
  generalize makeWay k s = u at *
  have taken : EnginesOk (if startsAtOnce k u then startMove k m u
      else checkPending k (setEngine k { u.eng.get k with pending := (u.eng.get k).pending ++ [m] } u)) := by
    split
    · exact enginesOk_startMove way waits.2
    · refine enginesOk_checkPending k (enginesOk_setEngine way rfl ?_)
      have ok := way k
      exact
        { window := ok.window
          ref := ok.ref
          active := ok.active
          pending := fun p hp => by
            rcases List.mem_append.mp hp with old | new
            · exact ok.pending p old
            · rw [List.mem_singleton.mp new]
              exact waits
          room := by
            simp only [List.length_append, List.length_singleton, pending]
            omega }
  exact taken

theorem flushPending_eng_of_ne (k : Stand) (l : List Move) (s : State) {j : Stand} (other : j ≠ k) :
    (flushPending k l s).eng.get j = s.eng.get j := by
  induction l generalizing s with
  | nil => rfl
  | cons m l ih =>
    rw [flushPending, ih]
    simp [PerStand.get_set_ne _ _ other]

theorem enginesOk_flushPending {s : State} (k : Stand) (h : EnginesOk s) :
    EnginesOk (flushPending k (s.eng.get k).pending s) := by
  intro j
  by_cases own : j = k
  · subst j
    rw [(flushPending_engine k _ s rfl).1]
    exact (h k).of_fewer rfl rfl (fun _ => id) (List.nil_sublist _)
  · rw [flushPending_eng_of_ne k _ s own]
    exact h j

theorem enginesOk_retract {s : State} (k : Stand) (h : EnginesOk s) : EnginesOk (retract k s) := by
  have aborted : EnginesOk (abortActive k s) := by
    unfold abortActive
    split
    · exact h
    · split
      · exact enginesOk_finishMove _ h
      · exact enginesOk_finishMove _ h
      · exact enginesOk_setEngine h (dropActive_eng k s) ((h k).ended _)
      · exact h
  have flushed := enginesOk_flushPending k aborted
  unfold retract
  dsimp only
  generalize flushPending k _ _ = u at *
  have started : EnginesOk (startRetract k u) := by
    unfold startRetract
    dsimp only
    split
    · exact flushed
    · have window := (flushed k).window
      exact enginesOk_startMove flushed ⟨by dsimp only; omega, Int.le_refl _⟩
  exact started

theorem inWindow_clamp {e : Engine} (ok : EngineOk e) (x : Int) : inWindow e.cfg (clamp e.cfg.gapMin e.cfg.gapMax x) :=
  clamp_bounds (by have := ok.window; omega) x

theorem clampedCfg_window (f : StandFields) : (clampedCfg f).gapMin + 1000 ≤ (clampedCfg f).gapMax := by
  have low := clamp_bounds (lo := 0) (hi := 29000) (by omega) (uint f.gapMin)
  have window : (clamp 0 29000 (uint f.gapMin)) + 1000 ≤ 30000 := by omega
  exact (clamp_bounds window (uint f.gapMax)).1

/-- R85: the engines' operations keep every engine well. -/
theorem enginesOk_alone : EnginesAlone EnginesOk where
  congr eng _ h := by
    intro k
    rw [eng]
    exact h k
  checkPending k h := enginesOk_checkPending k h
  retract _ h := enginesOk_retract _ h
  setup := by
    intro s k gap h
    rw [issueSetup_eq]
    repeat' split
    · exact h
    · exact h
    · rename_i room
      exact enginesOk_takeMove h ⟨.inl rfl, inWindow_clamp (h k) gap⟩ (by omega)
  feedback := by
    intro s k x h
    unfold takeFeedback
    dsimp only
    have target := inWindow_clamp (h k) x
    repeat' split
    all_goals first | exact h | exact enginesOk_startMove h target
  finish st _ h := enginesOk_finishMove st h
  posErr := by
    intro s k n h
    exact enginesOk_setEngine h rfl ((h k).of_fewer rfl rfl (fun _ => id) (List.Sublist.refl _))
  update := by
    intro s k h
    have ok := h k
    unfold update
    dsimp only
    split
    · rename_i a act
      split
      · rename_i more
        obtain ⟨window, ramp⟩ := ramp_steps ok act more
        refine enginesOk_setEngine (k := k) h (by rw [setRef_eng]; simp)
          (e := { s.eng.get k with
            act := .ramping { a with remaining := a.remaining - 1 }
            ref := if (s.eng.get k).ref < a.move.target then (s.eng.get k).ref + a.move.step
              else (s.eng.get k).ref - a.move.step })
          { window := ok.window
            ref := window
            active := fun b hb => by
              cases hb
              exact ⟨(ok.active a (by rw [act]; rfl)).1, ramp⟩
            pending := ok.pending
            room := ok.room }
      · obtain ⟨target, -⟩ := ok.active a (by rw [act]; rfl)
        refine enginesOk_setEngine (k := k) h (by rw [setRef_eng]; simp)
          (e := { s.eng.get k with
            act := .settling { a with remaining := 0 }
            settleLeft := some (s.eng.get k).cfg.settleTime
            ref := a.move.target })
          { window := ok.window
            ref := target
            active := fun b hb => by
              cases hb
              exact ⟨target, .inl rfl⟩
            pending := ok.pending
            room := ok.room }
    · exact h
    · exact h
    · exact h
  hold := by
    intro s k h
    unfold holdActive
    dsimp only
    have held {a : Active} {p : Phase} (active : (s.eng.get k).act.active? = some a) :
        EngineOk { s.eng.get k with act := .held a p, settleLeft := none } :=
      (h k).of_fewer rfl rfl (fun b hb => active.trans hb) (List.Sublist.refl _)
    split
    · exact h
    · split
      · rename_i act
        exact enginesOk_setEngine h rfl (held (by rw [act]; rfl))
      · rename_i act
        exact enginesOk_setEngine h rfl (held (by rw [act]; rfl))
      · exact h
      · exact h
  resume := by
    intro s k h
    unfold resumeActive
    dsimp only
    split
    · rename_i act
      exact enginesOk_setEngine h rfl ((h k).of_fewer rfl rfl (fun b hb => by rw [act]; exact hb) (List.Sublist.refl _))
    · rename_i act
      exact enginesOk_setEngine h rfl ((h k).of_fewer rfl rfl (fun b hb => by rw [act]; exact hb) (List.Sublist.refl _))
    · exact h
    · exact h
    · exact h
  cancel := by
    intro s k x m _ _ _ h
    have eng : (cancelPending k m s).eng =
        s.eng.set k { s.eng.get k with pending := (s.eng.get k).pending.filter fun p => p.tag != m.tag } := by
      simp [cancelPending]
    exact enginesOk_setEngine h eng ((h k).of_fewer rfl rfl (fun _ => id) List.filter_sublist)
  move := by
    intro s k x target rate inside _ room h
    exact enginesOk_takeMove (s := setSlots _ s) (m := linkMove x target rate) h ⟨.inr rfl, inside⟩ room
  settings := by
    intro s k f inside rest h
    simp only [Engine.atRest, Bool.and_eq_true, List.isEmpty_iff, Activity.isIdle_iff] at rest
    obtain ⟨idle, empty⟩ := rest
    exact enginesOk_setEngine h rfl
      { window := clampedCfg_window f
        ref := inside
        active := fun a ha => by simp [idle, Activity.active?] at ha
        pending := fun m hm => by simp [empty] at hm
        room := by simp [empty] }

end Sys2Proof.Machine
end

section
/-! R85: every step keeps each stand's reference and targets in its window. -/
namespace Sys2Proof.Machine
open Sys2Proof.Safety

/-! ### What a step does beyond the elementary operations, for invariants of the stands -/

/-- `P` is kept by the resets and by time as well. -/
structure StandSteps (P : State → Prop) : Prop extends Stands P where
  pinned : ∀ {s} p l, P s → P { s with pins := p, pending := l }
  reset : ∀ {s} cause b, P s → P (leaveReset cause { s with pins := { s.pins with reset := b } })
  time : ∀ {s}, s.pins.reset = false → P s → P (millisecond s)

theorem StandSteps.steps {P : State → Prop} (w : StandSteps P) : Steps P where
  toWalk := w.inner.walk
  reply _ _ h := w.setLink _ h
  source _ _ _ _ _ _ _ h := w.setLink _ (w.edged.latchCheck _ (w.setLink _ (w.setSource _ _ h)))
  lines b e h := w.pinned _ _ h
  queue l h := w.pinned _ _ h
  reset := w.reset
  held := by
    intro s h
    exact w.standsOnly (s := { s with pins := { s.pins with reset := true } }) rfl (w.pinned _ _ h)
  time := w.time

theorem leaveReset_eng (cause : ResetCause) (s : State) : (leaveReset cause s).eng = .fill .reset := by
  unfold leaveReset
  dsimp only
  split <;> rfl

theorem engineOk_reset : EngineOk .reset where
  window := by decide
  ref := by unfold inWindow; decide
  active a ha := by cases ha
  pending m hm := by cases hm
  room := by decide

theorem millisecond_eng {s : State} (free : s.pins.reset = false) (k : Stand) :
    (millisecond s).eng.get k = { s.eng.get k with settleLeft := lower (s.eng.get k).settleLeft } := by
  simp [millisecond, free]

theorem enginesOk_steps : StandSteps EnginesOk where
  toStands := enginesOk_alone.stands
  pinned _ _ h := h
  reset cause b _ := by
    intro k
    rw [leaveReset_eng, PerStand.get_fill]
    exact engineOk_reset
  time free h := by
    intro k
    rw [millisecond_eng free]
    exact (h k).of_fewer rfl rfl (fun _ => id) (List.Sublist.refl _)

end Sys2Proof.Machine

namespace Sys2Proof
open Machine Safety

/-- Settles O55: the engines' operations keep the windows, and a step is a walk through them. -/
theorem stepKeepsReferencesInWindow : Obligations.StepKeepsReferencesInWindow := by
  intro s t ok run
  exact enginesOk_steps.steps.step run ok

end Sys2Proof
end

section
/-! R88: a tag's slot is held exactly while one LINK move with the tag exists at the stand it names. What counts of a stand's moves is
their origins and tags in order. -/
namespace Sys2Proof.Machine
open Sys2Proof.Safety

/-- A move's origin and tag. -/
def Move.label (m : Move) : Origin × Option Tag := (m.origin, m.tag)

/-- The origins and tags of an engine's moves, active first. -/
def labels (e : Engine) : List (Origin × Option Tag) := (movesOf e).map Move.label

/-- The tags among labels. -/
def tagsIn (l : List (Origin × Option Tag)) : List Tag := l.filterMap Prod.snd

theorem tagsOf_eq (e : Engine) : tagsOf e = tagsIn (labels e) := by
  rw [tagsOf, tagsIn, labels, List.filterMap_map]
  rfl

theorem labels_idle {e : Engine} (idle : e.act = .idle) : labels e = e.pending.map Move.label := by
  simp [labels, movesOf, idle, Activity.active?]

theorem labels_active {e : Engine} {a : Active} (active : e.act.active? = some a) :
    labels e = a.move.label :: e.pending.map Move.label := by
  simp [labels, movesOf, active]

/-- A label as every move's should be: tagged exactly if it is a LINK move's. -/
def LabelOk (l : Origin × Option Tag) : Prop := l.2.isSome ↔ l.1 = .link

section
variable {s t : State} {k : Stand}

/-- The labels of the other engines stay where one engine is written. -/
theorem labels_of_ne {e : Engine} (eng : t.eng = s.eng.set k e) :
    ∀ j, j ≠ k → labels (t.eng.get j) = labels (s.eng.get j) := by
  intro j other
  rw [eng, PerStand.get_set_ne _ _ other]

theorem labels_self {e : Engine} (eng : t.eng = s.eng.set k e) : labels (t.eng.get k) = labels e := by
  rw [eng, PerStand.get_set_self]
end

end Sys2Proof.Machine

namespace Sys2Proof.Safety
open Sys2Proof.Machine

section
variable {s t : State} {k : Stand}

theorem SlotsOk.label (h : SlotsOk s) (k : Stand) : ∀ l ∈ labels (s.eng.get k), LabelOk l := by
  intro l hl
  obtain ⟨m, hm, rfl⟩ := List.mem_map.mp hl
  exact h.links k m hm

theorem SlotsOk.holds (h : SlotsOk s) (x : Tag) (k : Stand) : s.slots.get x = some k ↔ x ∈ tagsIn (labels (s.eng.get k)) := by
  rw [← tagsOf_eq]
  exact h.held x k

theorem SlotsOk.nodup (h : SlotsOk s) (k : Stand) : (tagsIn (labels (s.eng.get k))).Nodup := by
  rw [← tagsOf_eq]
  exact h.once k

theorem SlotsOk.of_labels (label : ∀ k, ∀ l ∈ labels (t.eng.get k), LabelOk l)
    (holds : ∀ x k, t.slots.get x = some k ↔ x ∈ tagsIn (labels (t.eng.get k)))
    (nodup : ∀ k, (tagsIn (labels (t.eng.get k))).Nodup) : SlotsOk t where
  links k m hm := label k m.label (List.mem_map_of_mem hm)
  held x k := by
    rw [tagsOf_eq]
    exact holds x k
  once k := by
    rw [tagsOf_eq]
    exact nodup k

theorem SlotsOk.congr (h : SlotsOk s) (same : ∀ j, labels (t.eng.get j) = labels (s.eng.get j)) (slots : t.slots = s.slots) :
    SlotsOk t := by
  refine .of_labels (fun j => ?_) (fun x j => ?_) (fun j => ?_)
  · rw [same]
    exact h.label j
  · rw [same, slots]
    exact h.holds x j
  · rw [same]
    exact h.nodup j

/-- One stand's moves have changed, and with them the slots: the tags that are new were free, the tags that are gone are freed. -/
theorem SlotsOk.change (h : SlotsOk s) (others : ∀ j, j ≠ k → labels (t.eng.get j) = labels (s.eng.get j))
    {new : List (Origin × Option Tag)} (moves : labels (t.eng.get k) = new) (label : ∀ l ∈ new, LabelOk l)
    (nodup : (tagsIn new).Nodup) (fresh : ∀ x ∈ tagsIn new, x ∈ tagsIn (labels (s.eng.get k)) ∨ s.slots.get x = none)
    (here : ∀ x ∈ tagsIn new, t.slots.get x = some k)
    (gone : ∀ x, x ∉ tagsIn new → x ∈ tagsIn (labels (s.eng.get k)) → t.slots.get x = none)
    (kept : ∀ x, x ∉ tagsIn new → x ∉ tagsIn (labels (s.eng.get k)) → t.slots.get x = s.slots.get x) : SlotsOk t := by
  refine .of_labels (fun j => ?_) (fun x j => ?_) (fun j => ?_)
  · by_cases own : j = k
    · rw [own, moves]
      exact label
    · rw [others j own]
      exact h.label j
  · by_cases own : j = k
    · rw [own, moves]
      refine ⟨fun held => Classical.byContradiction fun notNew => ?_, here x⟩
      by_cases old : x ∈ tagsIn (labels (s.eng.get k))
      · rw [gone x notNew old] at held
        cases held
      · rw [kept x notNew old] at held
        exact old ((h.holds x k).mp held)
    · rw [others j own, ← h.holds x j]
      by_cases isNew : x ∈ tagsIn new
      · rw [here x isNew]
        refine ⟨fun e => absurd (Option.some.inj e).symm own, fun e => ?_⟩
        rcases fresh x isNew with old | free
        · rw [(h.holds x k).mpr old] at e
          exact e
        · rw [free] at e
          cases e
      · by_cases old : x ∈ tagsIn (labels (s.eng.get k))
        · rw [gone x isNew old, (h.holds x k).mpr old]
          exact ⟨(by intro e; cases e), fun e => absurd (Option.some.inj e).symm own⟩
        · rw [kept x isNew old]
  · by_cases own : j = k
    · rw [own, moves]
      exact nodup
    · rw [others j own]
      exact h.nodup j

theorem tagsIn_middle (pre post : List (Origin × Option Tag)) (l : Origin × Option Tag) :
    tagsIn (pre ++ l :: post) = tagsIn pre ++ (l.2.toList ++ tagsIn post) := by
  cases tag : l.2 <;> simp [tagsIn, tag]

/-- One move is gone and its slot free. -/
theorem SlotsOk.remove (h : SlotsOk s) (others : ∀ j, j ≠ k → labels (t.eng.get j) = labels (s.eng.get j))
    {pre post : List (Origin × Option Tag)} {o : Origin} {tag : Option Tag}
    (before : labels (s.eng.get k) = pre ++ (o, tag) :: post) (after : labels (t.eng.get k) = pre ++ post)
    (slots : t.slots = (freeSlot tag s).slots) : SlotsOk t := by
  have nodup := h.nodup k
  have tags : tagsIn (pre ++ post) = tagsIn pre ++ tagsIn post := List.filterMap_append
  have slot (x : Tag) : t.slots.get x = if tag = some x then none else s.slots.get x := by
    rw [slots]
    cases tag with
    | none => rfl
    | some y =>
      show (s.slots.set y none).get x = _
      rw [PerTag.get_set]
      simp only [Option.some.injEq, eq_comm]
  rw [before, tagsIn_middle] at nodup
  have distinct {x : Tag} (left : x ∈ tagsIn pre ++ tagsIn post) : tag ≠ some x := by
    rintro rfl
    simp only [Option.toList_some, List.singleton_append, List.nodup_append, List.nodup_cons, List.mem_cons] at nodup
    obtain ⟨-, ⟨notAfter, -⟩, apart⟩ := nodup
    rcases List.mem_append.mp left with inPre | inPost
    · exact apart x inPre x (.inl rfl) rfl
    · exact notAfter inPost
  have old {x : Tag} (left : x ∈ tagsIn pre ++ tagsIn post) : x ∈ tagsIn (labels (s.eng.get k)) := by
    rw [before, tagsIn_middle]
    simp only [List.mem_append] at left ⊢
    exact left.imp_right .inr
  refine h.change others after (fun l hl => h.label k l ?_) ?_ ?_ ?_ ?_ ?_
  · rw [before]
    simp only [List.mem_append, List.mem_cons] at hl ⊢
    exact hl.imp_right .inr
  · rw [tags]
    exact nodup.sublist ((List.Sublist.refl _).append (List.sublist_append_right _ _))
  · intro x hx
    rw [tags] at hx
    exact .inl (old hx)
  · intro x hx
    rw [tags] at hx
    rw [slot, if_neg (distinct hx)]
    exact (h.holds x k).mpr (old hx)
  · intro x notNew isOld
    rw [before, tagsIn_middle] at isOld
    rw [tags] at notNew
    rw [slot]
    split
    · rfl
    · rename_i other
      simp only [List.mem_append, Option.mem_toList] at isOld notNew
      rcases isOld with inPre | own | inPost
      · exact absurd (.inl inPre) notNew
      · exact absurd own other
      · exact absurd (.inr inPost) notNew
  · intro x _ notOld
    rw [before, tagsIn_middle] at notOld
    rw [slot, if_neg]
    rintro rfl
    simp at notOld

/-- One move has joined at the back, without a tag or with a tag that was free. -/
theorem SlotsOk.join (h : SlotsOk s) (others : ∀ j, j ≠ k → labels (t.eng.get j) = labels (s.eng.get j))
    {l : Origin × Option Tag} (after : labels (t.eng.get k) = labels (s.eng.get k) ++ [l]) (ok : LabelOk l)
    (free : ∀ x, l.2 = some x → s.slots.get x = none)
    (slots : ∀ x, t.slots.get x = if l.2 = some x then some k else s.slots.get x) : SlotsOk t := by
  have tags : tagsIn (labels (s.eng.get k) ++ [l]) = tagsIn (labels (s.eng.get k)) ++ l.2.toList := by
    rw [tagsIn_middle]
    simp [tagsIn]
  have new {x : Tag} (hx : x ∈ tagsIn (labels (s.eng.get k) ++ [l])) : x ∈ tagsIn (labels (s.eng.get k)) ∨ l.2 = some x := by
    rw [tags] at hx
    simpa using hx
  have apart {x : Tag} (hx : l.2 = some x) : x ∉ tagsIn (labels (s.eng.get k)) := by
    intro old
    have := (h.holds x k).mpr old
    rw [free x hx] at this
    cases this
  refine h.change others after ?_ ?_ ?_ ?_ ?_ ?_
  · intro l' hl
    rcases List.mem_append.mp hl with old | isNew
    · exact h.label k l' old
    · rw [List.mem_singleton.mp isNew]
      exact ok
  · rw [tags, List.nodup_append]
    refine ⟨h.nodup k, by cases l.2 <;> simp, ?_⟩
    rintro x hx y hy rfl
    exact apart (by simpa using hy) hx
  · intro x hx
    exact (new hx).imp_right (free x)
  · intro x hx
    rw [slots]
    split
    · rfl
    · exact (h.holds x k).mpr ((new hx).resolve_right ‹_›)
  · intro x notNew isOld
    exact absurd (tags ▸ List.mem_append_left _ isOld) notNew
  · intro x notNew _
    rw [slots, if_neg]
    intro tag
    exact notNew (tags ▸ List.mem_append_right _ (by simp [tag]))

/-- An engine is written whose moves bear the same labels. -/
theorem SlotsOk.relabel {e : Engine} (h : SlotsOk s) (eng : t.eng = s.eng.set k e) (slots : t.slots = s.slots)
    (same : labels e = labels (s.eng.get k)) : SlotsOk t := by
  refine h.congr (fun j => ?_) slots
  by_cases own : j = k
  · rw [own, labels_self eng, same]
  · exact labels_of_ne eng j own
end

end Sys2Proof.Safety

namespace Sys2Proof.Machine
open Sys2Proof.Safety

/-! ### The engines' operations -/

section
variable {s t : State} {k : Stand}

theorem startMove_eng (k : Stand) (m : Move) (s : State) :
    ∃ a : Active, ∃ act left, act.active? = some a ∧ a.move = m ∧
      startMove k m s = setEngine k { s.eng.get k with act := act, settleLeft := left } s := by
  unfold startMove
  dsimp only
  split
  · exact ⟨_, .settling _, _, rfl, rfl, rfl⟩
  · exact ⟨_, .ramping _, _, rfl, rfl, rfl⟩

theorem labels_startMove (k : Stand) (m : Move) (s : State) :
    labels ((startMove k m s).eng.get k) = m.label :: (s.eng.get k).pending.map Move.label := by
  obtain ⟨a, act, left, active, move, started⟩ := startMove_eng k m s
  rw [started, setEngine_eng, PerStand.get_set_self, labels_active active, move]

theorem startMove_of_ne (k : Stand) (m : Move) (s : State) {j : Stand} (other : j ≠ k) :
    (startMove k m s).eng.get j = s.eng.get j := by
  rw [startMove_eq, setEngine_eng, PerStand.get_set_ne _ _ other]

@[simp] theorem startMove_slots (k : Stand) (m : Move) (s : State) : (startMove k m s).slots = s.slots := by
  rw [startMove_eq]
  rfl

theorem labels_checkPending (k j : Stand) (s : State) : labels ((checkPending k s).eng.get j) = labels (s.eng.get j) := by
  unfold checkPending
  dsimp only
  split
  · rfl
  · rename_i m rest pending
    split
    · rename_i free
      simp only [Bool.and_eq_true, Activity.isIdle_iff] at free
      by_cases own : j = k
      · rw [own, labels_startMove, labels_idle free.1, pending]
        simp
      · rw [startMove_of_ne _ _ _ own, setEngine_eng, PerStand.get_set_ne _ _ own]
    · rfl

@[simp] theorem checkPending_slots (k : Stand) (s : State) : (checkPending k s).slots = s.slots := by
  rw [checkPending_eq]
  rfl

theorem slotsOk_checkPending (k : Stand) (h : SlotsOk s) : SlotsOk (checkPending k s) :=
  h.congr (fun j => labels_checkPending k j s) (checkPending_slots k s)

theorem labels_ended (e : Engine) (retracted : Bool) : labels (e.ended retracted) = e.pending.map Move.label := labels_idle rfl

theorem slotsOk_finished {a : Active} (st : MoveStatus) (active : (s.eng.get k).act.active? = some a) (h : SlotsOk s) :
    SlotsOk (finished k a.move st s) := by
  have eng := finished_eng k a.move st s
  refine h.remove (k := k) (pre := []) (labels_of_ne eng) (labels_active active) ?_ (finished_slots k a.move st s)
  rw [labels_self eng, labels_ended]
  rfl

theorem slotsOk_dropActive {a : Active} (active : (s.eng.get k).act.active? = some a) (feedback : a.move.origin = .feedback)
    (h : SlotsOk s) : SlotsOk (dropActive k s) := by
  have eng := dropActive_eng k s
  have untagged : a.move.tag = none := by
    have ok := h.label k a.move.label (by rw [labels_active active]; exact List.mem_cons_self)
    simpa [LabelOk, Move.label, feedback] using ok
  refine h.remove (k := k) (pre := []) (labels_of_ne eng) (labels_active active) ?_ ?_
  · rw [labels_self eng, labels_ended]
    rfl
  · rw [untagged]
    rfl

theorem isOf_iff (act : Activity) (o : Origin) : act.isOf o = true ↔ ∃ a, act.active? = some a ∧ a.move.origin = o := by
  cases active : act.active? <;> simp [Activity.isOf, active]

theorem slotsOk_makeWay (k : Stand) (h : SlotsOk s) : SlotsOk (makeWay k s) := by
  have out : SlotsOk (setEngine k { s.eng.get k with retracted := false } s) := h.relabel rfl rfl rfl
  unfold makeWay
  dsimp only
  split
  · rename_i feedback
    obtain ⟨a, active, origin⟩ := (isOf_iff _ _).mp feedback
    exact slotsOk_dropActive active origin out
  · exact out

/-- A move that is taken starts or joins the queue: either way it is the last of the stand's moves. -/
theorem labels_takeMove (k j : Stand) (m : Move) (s : State) :
    labels ((takeMove k m s).eng.get j) =
      if j = k then labels ((makeWay k s).eng.get k) ++ [m.label] else labels ((makeWay k s).eng.get j) := by
  unfold takeMove
  dsimp only
  rw [deriveAgc_eng]
  generalize makeWay k s = u
  split
  · rename_i starts
    simp only [startsAtOnce, Bool.and_eq_true, Activity.isIdle_iff, List.isEmpty_iff] at starts
    obtain ⟨⟨idle, empty⟩, -⟩ := starts
    split
    · subst j
      rw [labels_startMove, labels_idle idle, empty]
      rfl
    · exact congrArg labels (startMove_of_ne _ _ _ ‹_›)
  · rw [labels_checkPending, setEngine_eng, PerStand.get_set]
    split
    · subst j
      simp [labels, movesOf]
    · rfl

@[simp] theorem takeMove_slots (k : Stand) (m : Move) (s : State) : (takeMove k m s).slots = s.slots := by
  unfold takeMove
  dsimp only
  rw [deriveAgc_slots]
  split
  · simp
  · simp

theorem makeWay_setSlots (k : Stand) (u : PerTag (Option Stand)) (s : State) :
    (makeWay k (setSlots u s)).eng = (makeWay k s).eng := by
  rw [makeWay_eng, makeWay_eng]
  rfl

theorem slotsOk_flushPending (k : Stand) (l : List Move) (pending : (s.eng.get k).pending = l) (h : SlotsOk s) :
    SlotsOk (flushPending k l s) := by
  induction l generalizing s with
  | nil => exact h
  | cons m rest ih =>
    refine ih (by simp) ?_
    have eng : (reportMove k m .abortedTrip (freeSlot m.tag (setEngine k { s.eng.get k with pending := rest } s))).eng =
        s.eng.set k { s.eng.get k with pending := rest } := by simp
    have before : labels (s.eng.get k) =
        ((s.eng.get k).act.active?.map Active.move).toList.map Move.label ++ (m.origin, m.tag) :: rest.map Move.label := by
      simp [labels, movesOf, pending, Move.label]
    refine h.remove (labels_of_ne eng) before ?_ ?_
    · rw [labels_self eng]
      simp [labels, movesOf]
    · cases m.tag <;> rfl

theorem slotsOk_startRetract (k : Stand) (idleOrOut : (s.eng.get k).act = .idle ∨ (s.eng.get k).act.isOf .retract = true)
    (empty : (s.eng.get k).pending = []) (h : SlotsOk s) : SlotsOk (startRetract k s) := by
  unfold startRetract
  dsimp only
  split
  · exact h
  · rename_i notOut
    have idle := idleOrOut.resolve_right notOut
    refine h.join (k := k) (fun j other => by rw [startMove_of_ne _ _ _ other]) (l := (.retract, none)) ?_ (by simp [LabelOk])
      (fun _ e => by cases e) (fun x => by simp)
    rw [labels_startMove, labels_idle idle, empty]
    rfl

/-- R101: at a stand that retracts, what the retract procedure leaves is IDLE or a RETRACT move. -/
theorem abortActive_act {k : Stand} {s : State} (retracting : s.retracting k = true) :
    let t := abortActive k s
    (t.eng.get k).act = .idle ∨ (t.eng.get k).act.isOf .retract = true := by
  have finished (m : Move) (st : MoveStatus) : ((finishMove k m st s).eng.get k).act = .idle := by
    have blocked : (finished k m st s).blocked k = true := by
      rw [blocked_congr (t := s) (by simp)]
      exact blocked_of_retracting retracting
    rw [finishMove_eq, checkPending_blocked blocked, finished_eng]
    simp [Engine.ended]
  dsimp only
  unfold abortActive
  split
  · rename_i noMove
    left
    cases act : (s.eng.get k).act <;> simp [act, Activity.active?] at noMove ⊢
  · rename_i a active
    split
    · exact .inl (finished _ _)
    · exact .inl (finished _ _)
    · left
      rw [dropActive_eng]
      simp [Engine.ended]
    · rename_i origin
      exact .inr ((isOf_iff _ _).mpr ⟨a, active, origin⟩)

theorem slotsOk_abortActive (k : Stand) (h : SlotsOk s) : SlotsOk (abortActive k s) := by
  unfold abortActive
  split
  · exact h
  · rename_i a active
    split
    · exact slotsOk_checkPending k (slotsOk_finished _ active h)
    · exact slotsOk_checkPending k (slotsOk_finished _ active h)
    · exact slotsOk_dropActive active ‹_› h
    · exact h

theorem slotsOk_retract {k : Stand} (retracting : s.retracting k = true) (h : SlotsOk s) : SlotsOk (retract k s) := by
  have act := abortActive_act retracting
  have flushed := slotsOk_flushPending k _ rfl (slotsOk_abortActive k h)
  have engine := (flushPending_engine k _ (abortActive k s) rfl).1
  unfold retract
  dsimp only at act ⊢
  have started : SlotsOk (startRetract k (flushPending k ((abortActive k s).eng.get k).pending (abortActive k s))) := by
    refine slotsOk_startRetract k ?_ ?_ flushed
    · rw [engine]
      exact act
    · rw [engine]
  exact started.congr (fun _ => rfl) rfl

theorem labels_eq_of_active {e e' : Engine} (active : e'.act.active?.map (fun a => a.move.label) = e.act.active?.map fun a => a.move.label)
    (pending : e'.pending = e.pending) : labels e' = labels e := by
  have split (f : Engine) : labels f = (f.act.active?.map fun a => a.move.label).toList ++ f.pending.map Move.label := by
    cases act : f.act.active? <;> simp [labels, movesOf, act]
  rw [split, split, active, pending]

/-- R99: the pending move with a tag is the one that leaves the queue. -/
theorem labels_cancelPending {x : Tag} {m : Move} (h : SlotsOk s)
    (found : ((s.eng.get k).pending.find? fun m => m.tag == some x) = some m) :
    ∃ pre post, labels (s.eng.get k) = pre ++ (m.origin, m.tag) :: post ∧
      labels { s.eng.get k with pending := (s.eng.get k).pending.filter fun p => p.tag != m.tag } = pre ++ post := by
  obtain ⟨tag, ahead, behind, pending, before⟩ := List.find?_eq_some_iff_append.mp found
  have tagged : m.tag = some x := by simpa using tag
  have nodup := h.nodup k
  have parts : labels (s.eng.get k) =
      (((s.eng.get k).act.active?.map Active.move).toList ++ ahead).map Move.label ++ (m.origin, m.tag) :: behind.map Move.label := by
    simp [labels, movesOf, pending, Move.label]
  rw [parts, tagsIn_middle, tagged] at nodup
  have others : ∀ p ∈ ahead ++ behind, p.tag ≠ some x := by
    intro p hp same
    rcases List.mem_append.mp hp with inAhead | inBehind
    · simpa [same] using before p inAhead
    · simp only [Option.toList_some, List.singleton_append, List.nodup_append, List.nodup_cons] at nodup
      obtain ⟨-, ⟨notAfter, -⟩, -⟩ := nodup
      refine notAfter (List.mem_filterMap.mpr ⟨p.label, List.mem_map_of_mem inBehind, same⟩)
  refine ⟨_, _, parts, ?_⟩
  have left : (s.eng.get k).pending.filter (fun p => p.tag != m.tag) = ahead ++ behind := by
    rw [pending, tagged]
    exact filter_otherTags tagged others
  simp [labels, movesOf, left]

/-- R88: the engines' operations keep the slots in step with the LINK moves. -/
theorem slotsOk_alone : EnginesAlone SlotsOk where
  congr eng slots h := h.congr (fun j => by rw [eng]) slots
  checkPending k h := slotsOk_checkPending k h
  retract retracting h := slotsOk_retract retracting h
  setup := by
    intro s k gap h
    rw [issueSetup_eq]
    repeat' split
    · exact h.congr (fun _ => rfl) rfl
    · exact h.congr (fun _ => rfl) rfl
    · refine (slotsOk_makeWay k h).join (k := k) (l := (.setup, none)) (fun j other => ?_) ?_ (by simp [LabelOk])
        (fun _ e => by cases e) (fun x => by simp)
      · rw [labels_takeMove, if_neg other]
      · rw [labels_takeMove, if_pos rfl]
        rfl
  feedback := by
    intro s k x h
    have again {a : Active} (active : (s.eng.get k).act.active? = some a) (target : Int) :
        SlotsOk (startMove k { a.move with target := target } s) := by
      refine h.relabel (k := k) (congrArg State.eng (startMove_eq _ _ _)) (startMove_slots _ _ _) ?_
      rw [labels_startMove, labels_active active]
      rfl
    unfold takeFeedback
    dsimp only
    split
    · exact h
    · split
      · rename_i idle
        split
        · rename_i free
          simp only [Bool.and_eq_true, List.isEmpty_iff] at free
          refine h.join (k := k) (l := (.feedback, none)) (fun j other => by rw [startMove_of_ne _ _ _ other]) ?_
            (by simp [LabelOk]) (fun _ e => by cases e) (fun x => by simp)
          rw [labels_startMove, labels_idle idle, free.1]
          rfl
        · exact h
      · rename_i act
        split
        · exact again (by rw [act]; rfl) _
        · exact h
      · rename_i act
        split
        · exact again (by rw [act]; rfl) _
        · exact h
      · exact h
  finish st active h := slotsOk_checkPending _ (slotsOk_finished st active h)
  posErr := by
    intro s k n h
    exact h.relabel rfl rfl rfl
  update := by
    intro s k h
    unfold update
    dsimp only
    split
    · rename_i a act
      split
      · refine h.relabel (k := k) (by rw [setRef_eng, setEngine_eng, PerStand.set_set]) (by simp) ?_
        exact labels_eq_of_active (by simp [act, Activity.active?]) (by simp)
      · refine h.relabel (k := k) (by rw [setRef_eng, setEngine_eng, PerStand.set_set]) (by simp) ?_
        exact labels_eq_of_active (by simp [act, Activity.active?]) (by simp)
    · exact h
    · exact h
    · exact h
  hold := by
    intro s k h
    unfold holdActive
    dsimp only
    split
    · exact h
    · split
      · exact h.relabel rfl rfl (labels_eq_of_active (by simp [*, Activity.active?]) rfl)
      · exact h.relabel rfl rfl (labels_eq_of_active (by simp [*, Activity.active?]) rfl)
      · exact h
      · exact h
  resume := by
    intro s k h
    unfold resumeActive
    dsimp only
    split
    · exact h.relabel rfl rfl (labels_eq_of_active (by simp [*, Activity.active?]) rfl)
    · exact h.relabel rfl rfl (labels_eq_of_active (by simp [*, Activity.active?]) rfl)
    · exact h
    · exact h
    · exact h
  cancel := by
    intro s k x m _ _ found h
    obtain ⟨pre, post, before, after⟩ := labels_cancelPending h found
    have eng : (cancelPending k m s).eng =
        s.eng.set k { s.eng.get k with pending := (s.eng.get k).pending.filter fun p => p.tag != m.tag } := by
      simp [cancelPending]
    refine h.remove (labels_of_ne eng) before ?_ ?_
    · rw [labels_self eng, after]
    · unfold cancelPending
      cases m.tag <;> rfl
  move := by
    intro s k x target rate _ free _ h
    have way := makeWay_setSlots k (s.slots.set x (some k)) s
    refine (slotsOk_makeWay k h).join (k := k) (l := (.link, some x)) (fun j other => ?_) ?_ (by simp [LabelOk]) ?_ ?_
    · rw [labels_takeMove, if_neg other, way]
    · rw [labels_takeMove, if_pos rfl, way]
      rfl
    · rintro y e
      cases e
      rw [makeWay_slots]
      exact free
    · intro y
      rw [takeMove_slots, setSlots_slots, makeWay_slots, PerTag.get_set]
      simp only [Option.some.injEq, eq_comm]
  settings := by
    intro s k f _ _ h
    exact h.relabel rfl rfl rfl

theorem leaveReset_slots (cause : ResetCause) (s : State) : (leaveReset cause s).slots = .fill none := by
  unfold leaveReset
  dsimp only
  split <;> rfl

theorem slotsOk_of_empty {t : State} (eng : t.eng = .fill .reset) (slots : t.slots = .fill none) : SlotsOk t := by
  have none (k : Stand) : labels (t.eng.get k) = [] := by
    rw [eng, PerStand.get_fill]
    rfl
  refine .of_labels (fun k l hl => ?_) (fun x k => ?_) (fun k => ?_)
  · rw [none] at hl
    cases hl
  · rw [none, slots, PerTag.get_fill]
    simp [tagsIn]
  · rw [none]
    exact List.nodup_nil

theorem slotsOk_steps : StandSteps SlotsOk where
  toStands := slotsOk_alone.stands
  pinned _ _ h := h.congr (fun _ => rfl) rfl
  reset cause b _ := slotsOk_of_empty (leaveReset_eng cause _) (leaveReset_slots cause _)
  time free h := by
    refine h.congr (fun j => ?_) ?_
    · rw [millisecond_eng free]
      rfl
    · simp [millisecond, free]
end

end Sys2Proof.Machine
namespace Sys2Proof
open Machine Safety

/-- Settles O56: the engines' operations keep the slots in step with the LINK moves, and a step is a walk through them. -/
theorem stepKeepsSlotsWithMoves : Obligations.StepKeepsSlotsWithMoves := by
  intro s t ok run
  exact slotsOk_steps.steps.step run ok

end Sys2Proof
end

section
/-! The trips' records, the stack, the action sets and the STOP line: what acting a source, releasing it and the rest of the machine do to
them (R111 to R132). -/
namespace Sys2Proof.Machine
open Sys2Proof.Safety

/-! ### What an operation on an action reads and writes -/

/-- A source record without its mode and its condition. -/
def SourceRec.core (r : SourceRec) : SourceRec := { r with mode := .edge, live := false }

@[simp] theorem SourceRec.core_st (r : SourceRec) : r.core.st = r.st := rfl
@[simp] theorem SourceRec.core_acted (r : SourceRec) : r.core.acted = r.acted := rfl
@[simp] theorem SourceRec.core_priority (r : SourceRec) : r.core.priority = r.priority := rfl
@[simp] theorem SourceRec.core_action (r : SourceRec) : r.core.action = r.action := rfl

/-- The sources but for modes and conditions, the ceiling, the stack, the action sets and the STOP line. -/
structure Acts where
  src : PerSource SourceRec
  ceiling : Nat
  stack : List Source
  sets : PerStand (List Entry)
  stop : Bool

def State.acts (s : State) : Acts where
  src := .ofFn fun x => (s.trips.src.get x).core
  ceiling := s.trips.ceiling
  stack := s.trips.stack
  sets := s.ilk.sets
  stop := s.ilk.stop

theorem acts_setSource (x : Source) (r : SourceRec) (s : State) :
    (setSource x r s).acts = { s.acts with src := s.acts.src.set x r.core } := by
  simp only [State.acts, setSource_trips, setSource_ilk, Acts.mk.injEq, and_true]
  exact PerSource.eq_of_get fun y => by
    simp only [PerSource.get_ofFn, PerSource.get_set]
    split <;> rfl

theorem acts_setLive (x : Source) (b : Bool) (s : State) : (setLive x b s).acts = s.acts := by
  have same : s.acts.src.set x { s.trips.src.get x with live := b }.core = s.acts.src := PerSource.eq_of_get fun y => by
    rw [PerSource.get_set]
    split
    · subst y
      simp [State.acts, SourceRec.core]
    · rfl
  rw [setLive, acts_setSource, same]

theorem acts_of_gearless {s t : State} (same : t.gearless = s.gearless) : t.acts = s.acts := by
  have e := congrArg State.acts same
  exact e

/-- The engines and gauge control do nothing to the sources, the stack, the action sets and the line. -/
theorem acts_gears (a : Acts) : Gears fun t => t.acts = a where
  gearless same h := (acts_of_gearless same).trans h
  link _ h := h
  live b _ h := (acts_setLive _ b _).trans h

theorem acts_markUnderStand (k : Stand) (s : State) : (markUnderStand k s).acts = s.acts := by
  unfold markUnderStand
  split <;> rfl

/-- R129: at one stand an applied action comes to its entry in the set. -/
theorem acts_applyAt (x : Source) (a : Action) (s : State) (k : Stand) :
    (applyAt x a s k).acts = { s.acts with sets := s.ilk.sets.set k (s.ilk.sets.get k ++ [{ source := x, action := a }]) } := by
  have gears := acts_gears { s.acts with sets := s.ilk.sets.set k (s.ilk.sets.get k ++ [{ source := x, action := a }]) }
  unfold applyAt
  dsimp only
  have entered : (setActions k (s.ilk.sets.get k ++ [{ source := x, action := a }]) s).acts =
      { s.acts with sets := s.ilk.sets.set k (s.ilk.sets.get k ++ [{ source := x, action := a }]) } := rfl
  generalize setActions k _ s = u at *
  have retracted : (if a.isRetractType && !s.retracting k then retract k (markUnderStand k u) else u).acts =
      { s.acts with sets := s.ilk.sets.set k (s.ilk.sets.get k ++ [{ source := x, action := a }]) } := by
    split
    · exact gears.retract k ((acts_markUnderStand k u).trans entered)
    · exact entered
  generalize (if a.isRetractType && !s.retracting k then retract k (markUnderStand k u) else u) = v at *
  have held : (if a = .hold ∧ !v.retracting k then holdActive k v else v).acts =
      { s.acts with sets := s.ilk.sets.set k (s.ilk.sets.get k ++ [{ source := x, action := a }]) } := by
    split
    · exact gears.holdActive k retracted
    · exact retracted
  split
  · exact gears.deriveAgc k held
  · exact held

/-- R130: at one stand a release comes to the set without the source's entry. -/
theorem acts_releaseAt (x : Source) (s : State) (k : Stand) :
    (releaseAt x s k).acts =
      { s.acts with sets := s.ilk.sets.set k ((s.ilk.sets.get k).filter fun e => e.source != x) } := by
  have gears := acts_gears { s.acts with sets := s.ilk.sets.set k ((s.ilk.sets.get k).filter fun e => e.source != x) }
  unfold releaseAt
  dsimp only
  split
  · rfl
  · exact gears.deriveAgc k (gears.checkPending k rfl)

/-- The sets with one rewritten at each of some stands. -/
def rewritten (f : List Entry → List Entry) (l : List Stand) (sets : PerStand (List Entry)) : PerStand (List Entry) :=
  .ofFn fun k => if k ∈ l then f (sets.get k) else sets.get k

theorem acts_foldl {op : State → Stand → State} (f : List Entry → List Entry)
    (one : ∀ s k, (op s k).acts = { s.acts with sets := s.ilk.sets.set k (f (s.ilk.sets.get k)) }) {l : List Stand} (once : l.Nodup)
    (s : State) : (l.foldl op s).acts = { s.acts with sets := rewritten f l s.ilk.sets } := by
  induction l generalizing s with
  | nil =>
    have same : rewritten f [] s.ilk.sets = s.ilk.sets := PerStand.eq_of_get fun k => by simp [rewritten]
    rw [same]
    rfl
  | cons k l ih =>
    obtain ⟨notIn, once⟩ := List.nodup_cons.mp once
    have sets : (op s k).ilk.sets = s.ilk.sets.set k (f (s.ilk.sets.get k)) := congrArg Acts.sets (one s k)
    have step : rewritten f l (s.ilk.sets.set k (f (s.ilk.sets.get k))) = rewritten f (k :: l) s.ilk.sets := by
      refine PerStand.eq_of_get fun j => ?_
      simp only [rewritten, PerStand.get_ofFn, PerStand.get_set, List.mem_cons]
      by_cases own : j = k
      · subst j
        simp [notIn]
      · simp [own]
    rw [List.foldl_cons, ih once, one, sets, step]

theorem scope_nodup (x : Source) : (scope x).Nodup := by
  cases x <;> first | exact Stand.all_nodup | exact List.pairwise_singleton _ _

/-- R129, R132: an applied action is an entry at the back of every set in its scope, and STOP asserts the line. -/
theorem acts_applyAction (x : Source) (a : Action) (s : State) :
    (applyAction x a s).acts =
      { s.acts with
        stop := s.ilk.stop || a == .stop
        sets := rewritten (fun es => es ++ [{ source := x, action := a }]) (scope x) s.ilk.sets } := by
  unfold applyAction
  dsimp only
  rw [acts_foldl (fun es => es ++ [{ source := x, action := a }]) (acts_applyAt x a) (scope_nodup x)]
  split
  · rename_i stop
    simp [State.acts, stop]
  · rename_i stop
    simp [State.acts, stop]

theorem acts_releaseAction (x : Source) (s : State) :
    (releaseAction x s).acts =
      { s.acts with sets := rewritten (fun es => es.filter fun e => e.source != x) (scope x) s.ilk.sets } :=
  acts_foldl (fun es => es.filter fun e => e.source != x) (acts_releaseAt x) (scope_nodup x) s

/-! ### The invariant, with a ceiling of each source's own -/

/-- `ActionsOk` with the ceiling up to which each source must have been acted: while a new ceiling is carried out, some have not. -/
structure ActsOk (ceiling : Source → Nat) (a : Acts) : Prop where
  source : ∀ x, SourceOk (ceiling x) (a.src.get x)
  members : ∀ x, x ∈ a.stack ↔ (a.src.get x).st = .inService
  rising : a.stack.Pairwise fun x y => (a.src.get x).priority < (a.src.get y).priority
  entry : ∀ k x act, ({ source := x, action := act } : Entry) ∈ a.sets.get k ↔
    (a.src.get x).acted = true ∧ (a.src.get x).action = act ∧ k ∈ scope x
  once : ∀ k, (a.sets.get k).Nodup
  line : ∀ x, (a.src.get x).action = .stop → (a.src.get x).acted = true → a.stop = true

theorem sourceOk_core_iff (c : Nat) (r : SourceRec) : SourceOk c r.core ↔ SourceOk c r :=
  ⟨fun h => ⟨h.priority, h.stop, h.retract, h.masked, h.quiet, h.pending, h.service, h.rep⟩,
    fun h => ⟨h.priority, h.stop, h.retract, h.masked, h.quiet, h.pending, h.service, h.rep⟩⟩

theorem actionsOk_iff (s : State) :
    ActionsOk s ↔ ActsOk (fun _ => s.trips.ceiling) s.acts ∧ 2 ≤ s.trips.ceiling ∧ s.trips.ceiling ≤ 8 := by
  constructor
  · intro ok
    obtain ⟨⟨source, ceiling, members, rising⟩, entry, once, line⟩ := ok
    refine ⟨⟨fun x => ?_, fun x => ?_, ?_, fun k x a => ?_, once, fun x => ?_⟩, ceiling⟩
    · simpa [State.acts, sourceOk_core_iff] using source x
    · simpa [State.acts, SourceRec.core] using members x
    · simpa [State.acts, SourceRec.core] using rising
    · simpa [State.acts, SourceRec.core] using entry k x a
    · simpa [State.acts, SourceRec.core] using line x
  · rintro ⟨⟨source, members, rising, entry, once, line⟩, ceiling⟩
    refine ⟨⟨fun x => ?_, ceiling, fun x => ?_, ?_⟩, fun k x a => ?_, once, fun x => ?_⟩
    · simpa [State.acts, sourceOk_core_iff] using source x
    · simpa [State.acts, SourceRec.core] using members x
    · simpa [State.acts, SourceRec.core] using rising
    · simpa [State.acts, SourceRec.core] using entry k x a
    · simpa [State.acts, SourceRec.core] using line x

section
variable {c : Source → Nat} {a : Acts}

/-- A source's record is replaced by one as well acted. -/
theorem ActsOk.reset (h : ActsOk c a) {x : Source} {r : SourceRec} (ok : SourceOk (c x) r)
    (acted : r.acted = (a.src.get x).acted) (action : (a.src.get x).acted = true → r.action = (a.src.get x).action)
    {stack : List Source} (members : ∀ y, y ∈ stack ↔ ((a.src.set x r).get y).st = .inService)
    (rising : stack.Pairwise fun y z => ((a.src.set x r).get y).priority < ((a.src.set x r).get z).priority) :
    ActsOk c { a with src := a.src.set x r, stack := stack } where
  source y := by
    rw [PerSource.get_set]
    split
    · subst y
      exact ok
    · exact h.source y
  members := members
  rising := rising
  entry k y b := by
    rw [h.entry, PerSource.get_set]
    split
    · subst y
      rw [acted]
      exact and_congr_right fun on => by rw [action on]
    · rfl
  once := h.once
  line y := by
    rw [PerSource.get_set]
    split
    · subst y
      rw [acted]
      exact fun stop on => h.line x (action on ▸ stop) on
    · exact h.line y

/-- A source out of service is replaced by one out of service and as well acted. -/
theorem ActsOk.replace (h : ActsOk c a) {x : Source} {r : SourceRec} (ok : SourceOk (c x) r)
    (acted : r.acted = (a.src.get x).acted) (action : (a.src.get x).acted = true → r.action = (a.src.get x).action)
    (out : (a.src.get x).st ≠ .inService) (stays : r.st ≠ .inService) : ActsOk c { a with src := a.src.set x r } := by
  have inStack {y : Source} (on : y ∈ a.stack) : y ≠ x := by
    rintro rfl
    exact out ((h.members y).mp on)
  refine h.reset ok acted action (fun y => ?_) ?_
  · rw [h.members, PerSource.get_set]
    split
    · subst y
      exact ⟨fun e => absurd e out, fun e => absurd e stays⟩
    · rfl
  · refine h.rising.imp_of_mem fun hy hz less => ?_
    rw [PerSource.get_set, PerSource.get_set, if_neg (inStack hy), if_neg (inStack hz)]
    exact less

/-- R129: a source is acted: its mark, its entries and the line go together. -/
theorem ActsOk.acting (h : ActsOk c a) {x : Source} (idle : (a.src.get x).acted = false) (pending : (a.src.get x).st = .pending)
    {d : Source → Nat} (below : ∀ y, y ≠ x → d y = c y) :
    ActsOk d { a with
      src := a.src.set x { a.src.get x with acted := true }
      stop := a.stop || (a.src.get x).action == .stop
      sets := rewritten (fun es => es ++ [{ source := x, action := (a.src.get x).action }]) (scope x) a.sets } := by
  have own := h.source x
  have noEntry (k : Stand) (b : Action) : ({ source := x, action := b } : Entry) ∉ a.sets.get k := by
    rw [h.entry, idle]
    simp
  refine ⟨fun y => ?_, fun y => ?_, ?_, fun k y b => ?_, fun k => ?_, fun y => ?_⟩
  · rw [PerSource.get_set]
    split
    · subst y
      exact
        { priority := own.priority
          stop := own.stop
          retract := own.retract
          masked := own.masked
          quiet := fun quiet => absurd (quiet.symm.trans pending) (by simp)
          pending := fun _ _ => rfl
          service := fun _ => rfl
          rep := own.rep }
    · rw [below y ‹_›]
      exact h.source y
  · rw [h.members, PerSource.get_set]
    split
    · subst y
      rfl
    · rfl
  · refine h.rising.imp fun less => ?_
    simp only [PerSource.get_set]
    split <;> split <;> simp_all
  · simp only [rewritten, PerStand.get_ofFn, PerSource.get_set]
    by_cases same : y = x
    · subst y
      by_cases inScope : k ∈ scope x
      · simp [inScope, noEntry, eq_comm]
      · simp [inScope, noEntry]
    · rw [if_neg same, ← h.entry]
      split <;> simp [same]
  · simp only [rewritten, PerStand.get_ofFn]
    split
    · exact List.nodup_append.mpr ⟨h.once k, List.pairwise_singleton _ _, fun e he f hf => by
        rintro rfl
        rw [List.mem_singleton.mp hf] at he
        exact noEntry k _ he⟩
    · exact h.once k
  · rw [PerSource.get_set]
    split
    · intro stop _
      simp [show (a.src.get x).action = .stop from stop]
    · intro stop acted
      simp [h.line y stop acted]

/-- R130: a source that goes quiet has left every set. -/
theorem ActsOk.released (h : ActsOk c a) {x : Source} {r : SourceRec} (ok : SourceOk (c x) r) (acted : r.acted = false)
    (quiet : r.st ≠ .inService) :
    ActsOk c { a with
      src := a.src.set x r
      stack := a.stack.filter fun y => y != x
      sets := rewritten (fun es => es.filter fun e => e.source != x) (scope x) a.sets } := by
  refine ⟨fun y => ?_, fun y => ?_, ?_, fun k y b => ?_, fun k => ?_, fun y => ?_⟩
  · rw [PerSource.get_set]
    split
    · subst y
      exact ok
    · exact h.source y
  · rw [List.mem_filter, h.members, PerSource.get_set]
    split
    · subst y
      simpa using quiet
    · simp [*]
  · refine (h.rising.filter _).imp_of_mem fun hy hz less => ?_
    have hy := (List.mem_filter.mp hy).2
    have hz := (List.mem_filter.mp hz).2
    rw [bne_iff_ne] at hy hz
    simpa [PerSource.get_set, hy, hz] using less
  · have entry := h.entry k y b
    simp only [rewritten, PerStand.get_ofFn, PerSource.get_set]
    by_cases same : y = x
    · subst y
      by_cases inScope : k ∈ scope x
      · simp [inScope, acted]
      · simp [inScope, acted, entry]
    · rw [if_neg same, ← entry]
      split <;> simp [same]
  · simp only [rewritten, PerStand.get_ofFn]
    split
    · exact (h.once k).filter _
    · exact h.once k
  · rw [PerSource.get_set]
    split
    · rw [acted]
      simp
    · exact h.line y
end

end Sys2Proof.Machine
end

section
/-! Every step keeps the sources, the stack, the action sets and the STOP line in agreement. -/
namespace Sys2Proof.Machine
open Sys2Proof.Safety

section
variable {s t : State} {x : Source}

theorem actionsOk_congr (same : t.acts = s.acts) (h : ActionsOk s) : ActionsOk t := by
  have ceiling : t.trips.ceiling = s.trips.ceiling := congrArg Acts.ceiling same
  rw [actionsOk_iff] at h ⊢
  rwa [same, ceiling]

theorem acts_src (x : Source) (s : State) : s.acts.src.get x = (s.trips.src.get x).core := PerSource.get_ofFn _ x

theorem acts_act (x : Source) (s : State) :
    (act x s).acts =
      { s.acts with
        src := s.acts.src.set x { s.acts.src.get x with acted := true }
        stop := s.acts.stop || (s.acts.src.get x).action == .stop
        sets := rewritten (fun es => es ++ [{ source := x, action := (s.acts.src.get x).action }]) (scope x) s.acts.sets } := by
  unfold act
  dsimp only
  rw [acts_applyAction, acts_setSource, acts_src]
  rfl

/-- A source latches: PENDING, and acted where it is eligible. -/
theorem acts_latch (x : Source) (s : State) :
    (latch x s).acts =
      if s.eligible x then (act x (setSource x { s.trips.src.get x with st := .pending } s)).acts
      else (setSource x { s.trips.src.get x with st := .pending } s).acts := by
  have eligible : (setSource x { s.trips.src.get x with st := .pending } s).eligible x = s.eligible x := by
    simp [State.eligible]
  unfold latch
  dsimp only
  rw [eligible]
  split <;> rfl

theorem SourceOk.below {c : Nat} {r : SourceRec} (h : SourceOk c r) : SourceOk 0 r :=
  { h with pending := fun _ lower => absurd lower (Nat.not_lt_zero _) }

/-- R111, R112: a quiet source that latches stays in agreement with the sets. -/
theorem actionsOk_latch (quiet : (s.trips.src.get x).st = .quiet) (unmasked : (s.trips.src.get x).masked = false)
    (h : ActionsOk s) : ActionsOk (latch x s) := by
  obtain ⟨ok, range⟩ := (actionsOk_iff s).mp h
  have ceiling : (latch x s).trips.ceiling = s.trips.ceiling := ceiling_of_calm (calm_latch s x)
  have own := ok.source x
  have idle : (s.acts.src.get x).acted = false := own.quiet (by rw [acts_src]; exact quiet)
  refine (actionsOk_iff _).mpr ⟨?_, by rwa [ceiling]⟩
  have bare : (s.acts.src.get x).masked = false := by rw [acts_src]; exact unmasked
  have pending (c : Nat) (missed : (s.acts.src.get x).priority < c → False) :
      SourceOk c { s.acts.src.get x with st := .pending } :=
    { priority := own.priority
      stop := own.stop
      retract := own.retract
      masked := fun masked => absurd (bare.symm.trans masked) (by simp)
      quiet := fun e => by cases e
      pending := fun _ lower => (missed lower).elim
      service := fun e => by cases e
      rep := fun rep => by
        have := own.rep rep
        rw [acts_src] at this
        exact absurd (quiet.symm.trans this) (by simp) }
  have out : (s.acts.src.get x).st ≠ .inService := by
    rw [acts_src]
    exact fun e => absurd (quiet.symm.trans e) (by simp)
  have core : (setSource x { s.trips.src.get x with st := .pending } s).acts =
      { s.acts with src := s.acts.src.set x { s.acts.src.get x with st := .pending } } := by
    rw [acts_setSource, acts_src]
    rfl
  rw [acts_latch, ceiling]
  split
  · have waiting : ActsOk (fun y => if y = x then 0 else s.trips.ceiling)
        { s.acts with src := s.acts.src.set x { s.acts.src.get x with st := .pending } } := by
      have lowered : ActsOk (fun y => if y = x then 0 else s.trips.ceiling) s.acts := by
        refine { ok with source := fun y => ?_ }
        split
        · exact SourceOk.below (ok.source y)
        · exact ok.source y
      exact lowered.replace (by simpa using pending 0 (by simp)) rfl (fun _ => rfl) out (by simp)
    rw [acts_act, core]
    exact waiting.acting (by simpa using idle) (by simp) fun y other => by simp [other]
  · rename_i above
    rw [core]
    refine ok.replace (pending _ fun lower => above ?_) rfl (fun _ => rfl) out (by simp)
    rw [acts_src] at lower
    simpa [State.eligible] using lower

/-- R113: a source in service takes a repeat mark. -/
theorem actionsOk_again (service : (s.trips.src.get x).st = .inService) (h : ActionsOk s) :
    ActionsOk (setSource x { s.trips.src.get x with rep := true } s) := by
  obtain ⟨ok, range⟩ := (actionsOk_iff s).mp h
  refine (actionsOk_iff _).mpr ⟨?_, range⟩
  have own := ok.source x
  rw [acts_setSource]
  refine ok.reset ?_ (by rw [acts_src]; rfl) (fun _ => by rw [acts_src]; rfl) (fun y => ?_) ?_
  · rw [acts_src] at own
    exact { own with rep := fun _ => service }
  · rw [ok.members, PerSource.get_set]
    split
    · subst y
      rw [acts_src]
      rfl
    · rfl
  · refine ok.rising.imp fun less => ?_
    simp only [PerSource.get_set]
    split <;> split <;> simp_all [acts_src, SourceRec.core]

theorem actionsOk_latchCheck (x : Source) (h : ActionsOk s) : ActionsOk (latchCheck s x) := by
  unfold latchCheck
  dsimp only
  split
  · rename_i due
    simp only [Bool.and_eq_true, Bool.not_eq_true', beq_iff_eq] at due
    obtain ⟨⟨⟨unmasked, -⟩, quiet⟩, -⟩ := due
    exact actionsOk_latch quiet unmasked h
  · exact h

theorem actionsOk_latchChecks (l : List Source) (h : ActionsOk s) : ActionsOk (l.foldl latchCheck s) := by
  induction l generalizing s with
  | nil => exact h
  | cons x l ih => exact ih (actionsOk_latchCheck x h)

/-! ### A new ceiling -/

/-- R124: while a new ceiling is carried out, the sources still to come have not been acted for it. -/
theorem actsOk_actIfEligible (l : List Source) (once : l.Nodup) {c : Source → Nat} (after : ∀ y, y ∉ l → c y = s.trips.ceiling)
    (before : ∀ y ∈ l, c y = 0) (h : ActsOk c s.acts) :
    ActsOk (fun _ => s.trips.ceiling) (l.foldl actIfEligible s).acts := by
  induction l generalizing s c with
  | nil =>
    have same : c = fun _ => s.trips.ceiling := funext fun y => after y List.not_mem_nil
    rwa [same] at h
  | cons x l ih =>
    obtain ⟨notIn, once⟩ := List.nodup_cons.mp once
    have ceiling : (actIfEligible s x).trips.ceiling = s.trips.ceiling := ceiling_of_calm (calm_actIfEligible s x)
    have next : ActsOk (fun y => if y = x then s.trips.ceiling else c y) (actIfEligible s x).acts := by
      unfold actIfEligible
      dsimp only
      split
      · rename_i due
        simp only [Bool.and_eq_true, Bool.not_eq_true', beq_iff_eq] at due
        obtain ⟨⟨pending, -⟩, idle⟩ := due
        rw [acts_act]
        exact h.acting (by rw [acts_src]; exact idle) (by rw [acts_src]; exact pending) fun y other => if_neg other
      · rename_i settled
        refine { h with source := fun y => ?_ }
        split
        · subst y
          have own := h.source x
          rw [acts_src] at own ⊢
          refine { own with pending := fun pending lower => ?_ }
          have eligible : s.eligible x = true := by simpa [State.eligible] using lower
          simp only [show (s.trips.src.get x).st = .pending from pending, eligible, beq_self_eq_true, Bool.true_and,
            Bool.not_eq_true, Bool.not_eq_false'] at settled
          exact settled
        · exact h.source y
    rw [List.foldl_cons, ← ceiling]
    refine ih once (fun y hy => ?_) (fun y hy => ?_) next
    · rw [ceiling]
      split
      · rfl
      · exact after y (by simp [*])
    · have other : y ≠ x := by
        rintro rfl
        exact notIn hy
      rw [if_neg other]
      exact before y (List.mem_cons_of_mem _ hy)

theorem actionsOk_ceiling {c : Nat} (low : 2 ≤ c) (high : c ≤ 8) (h : ActionsOk s) :
    ActionsOk (Source.all.foldl actIfEligible { s with trips := { s.trips with ceiling := c } }) := by
  obtain ⟨ok, -⟩ := (actionsOk_iff s).mp h
  have ceiling : (Source.all.foldl actIfEligible { s with trips := { s.trips with ceiling := c } }).trips.ceiling = c :=
    ceiling_of_calm (calm_foldl calm_actIfEligible Source.all _)
  refine (actionsOk_iff _).mpr ⟨?_, by rw [ceiling]; exact ⟨low, high⟩⟩
  rw [ceiling]
  refine actsOk_actIfEligible (s := { s with trips := { s.trips with ceiling := c } }) Source.all Source.all_nodup
    (c := fun _ => 0) (fun y hy => absurd (Source.mem_all y) hy) (fun _ _ => rfl) ?_
  exact ⟨fun y => SourceOk.below (ok.source y), ok.members, ok.rising, ok.entry, ok.once, ok.line⟩

/-! ### Taking and ending -/

/-- R116: a selected source is PENDING and eligible, and so acted, and goes above the top of the stack. -/
theorem actionsOk_take (sel : selected s = some x) (h : ActionsOk s) : ActionsOk (take x s) := by
  obtain ⟨ok, range⟩ := (actionsOk_iff s).mp h
  obtain ⟨urgent, qualified⟩ := Option.filter_eq_some_iff.mp sel
  obtain ⟨offered, -⟩ := (mostUrgent_eq_some_iff s x).mp urgent
  obtain ⟨pending, eligible⟩ := offered
  have own := ok.source x
  rw [acts_src] at own
  have acted : (s.trips.src.get x).acted = true := own.pending pending eligible
  have out : x ∉ s.trips.stack := by
    intro on
    have := (ok.members x).mp on
    rw [acts_src] at this
    exact absurd (pending.symm.trans this) (by simp)
  have acts : (take x s).acts =
      { s.acts with src := s.acts.src.set x { s.trips.src.get x with st := .inService }.core, stack := x :: s.acts.stack } := by
    have set := acts_setSource x { s.trips.src.get x with st := .inService } s
    exact congrArg (fun a : Acts => { a with stack := x :: s.trips.stack }) set
  refine (actionsOk_iff _).mpr ⟨?_, range⟩
  rw [acts]
  refine ok.reset ?_ (by rw [acts_src]; rfl) (fun _ => by rw [acts_src]; rfl) (fun y => ?_) ?_
  · exact
      { priority := own.priority
        stop := own.stop
        retract := own.retract
        masked := fun masked => absurd ((own.masked masked).symm.trans pending) (by simp)
        quiet := fun e => by cases e
        pending := fun e => by cases e
        service := fun _ => acted
        rep := fun _ => rfl }
  · rw [PerSource.get_set, List.mem_cons, ok.members]
    split
    · simp [*]
    · simp [*]
  · refine List.pairwise_cons.mpr ⟨fun y hy => ?_, ok.rising.imp_of_mem fun {y z} hy hz less => ?_⟩
    · have other : y ≠ x := by
        rintro rfl
        exact out hy
      rw [PerSource.get_set_self, PerSource.get_set_ne _ _ other, acts_src]
      unfold qualifies at qualified
      have rising := ok.rising
      change y ∈ s.trips.stack at hy
      change s.trips.stack.Pairwise _ at rising
      cases stack : s.trips.stack with
      | nil =>
        rw [stack] at hy
        cases hy
      | cons top rest =>
        simp only [stack, decide_eq_true_eq] at qualified hy rising
        rcases List.mem_cons.mp hy with atTop | below
        · rw [atTop]
          exact qualified
        · have := List.rel_of_pairwise_cons rising below
          rw [acts_src, acts_src] at this
          exact Nat.lt_trans qualified this
    · have apart {w : Source} (on : w ∈ s.acts.stack) : w ≠ x := by
        rintro rfl
        exact out on
      rw [PerSource.get_set_ne _ _ (apart hy), PerSource.get_set_ne _ _ (apart hz)]
      exact less

/-- R121: an ended source waits again, or goes quiet with its action released. -/
theorem actionsOk_endService (on : x ∈ s.trips.stack ∨ (s.trips.src.get x).st = .inService) (h : ActionsOk s) :
    ActionsOk (endService x s) := by
  obtain ⟨ok, range⟩ := (actionsOk_iff s).mp h
  have service : (s.trips.src.get x).st = .inService := on.elim (fun stack => by
    have := (ok.members x).mp stack
    rwa [acts_src] at this) id
  have own := ok.source x
  rw [acts_src] at own
  have acted : (s.trips.src.get x).acted = true := own.service service
  have unmasked : (s.trips.src.get x).masked ≠ true := fun masked => absurd ((own.masked masked).symm.trans service) (by simp)
  have stack : (s.trips.stack.filter fun y => y ≠ x) = s.trips.stack.filter fun y => y != x :=
    List.filter_congr fun y _ => by rw [Bool.eq_iff_iff, bne_iff_ne, decide_eq_true_iff]
  have ended (r : SourceRec) : (endedAs x r s).acts =
      { s.acts with src := s.acts.src.set x r.core, stack := s.acts.stack.filter fun y => y != x } := by
    rw [← setSource_leaveStack, acts_setSource]
    rfl
  have ceiling (r : SourceRec) : (endedAs x r s).trips.ceiling = s.trips.ceiling := rfl
  cases again : (s.trips.src.get x).raisedAgain with
  | true =>
    rw [endService_again again]
    refine (actionsOk_iff _).mpr ⟨?_, range⟩
    show ActsOk _ (endedAs x _ s).acts
    rw [ended]
    refine ok.reset ?_ (by rw [acts_src]; rfl) (fun _ => by rw [acts_src]; rfl) (fun y => ?_) ?_
    · exact
        { priority := own.priority
          stop := own.stop
          retract := own.retract
          masked := fun masked => absurd masked unmasked
          quiet := fun e => by cases e
          pending := fun _ _ => acted
          service := fun _ => acted
          rep := fun e => by cases e }
    · rw [List.mem_filter, ok.members, PerSource.get_set]
      split
      · simp [*, SourceRec.core]
      · simp [*]
    · refine (ok.rising.filter _).imp_of_mem fun hy hz less => ?_
      have hy := (List.mem_filter.mp hy).2
      have hz := (List.mem_filter.mp hz).2
      rw [bne_iff_ne] at hy hz
      rwa [PerSource.get_set_ne _ _ hy, PerSource.get_set_ne _ _ hz]
  | false =>
    rw [endService_done again]
    refine (actionsOk_iff _).mpr ⟨?_, by simpa using range⟩
    show ActsOk (fun _ => (releaseAction x (endedAs x _ s)).trips.ceiling) (releaseAction x (endedAs x _ s)).acts
    rw [releaseAction_trips, acts_releaseAction, ended]
    refine ok.released (r := SourceRec.core _) ?_ rfl (by simp [SourceRec.core])
    exact
      { priority := own.priority
        stop := own.stop
        retract := own.retract
        masked := fun _ => rfl
        quiet := fun _ => rfl
        pending := fun e => by cases e
        service := fun e => by cases e
        rep := fun e => by cases e }

/-! ### Requests and resets -/

/-- R127: after a restart every source is quiet and every set empty. -/
theorem actionsOk_restartCleared (h : ActionsOk s) : ActionsOk (restartCleared s) := by
  have src (x : Source) : (restartCleared s).trips.src.get x = restartSource s.ilk x (s.trips.src.get x) :=
    PerSource.get_ofFn _ x
  have sets (k : Stand) : (restartCleared s).ilk.sets.get k = [] := PerStand.get_fill _ k
  refine ⟨⟨fun x => ?_, h.trips.ceiling, fun x => ?_, List.Pairwise.nil⟩, fun k x a => ?_, fun k => ?_, fun x => ?_⟩
  · have own := h.trips.source x
    rw [src]
    exact
      { priority := own.priority
        stop := own.stop
        retract := own.retract
        masked := fun _ => rfl
        quiet := fun _ => rfl
        pending := fun e => by cases e
        service := fun e => by cases e
        rep := fun e => by cases e }
  · rw [src]
    simp [restartSource, restartCleared, restartTrips]
  · rw [src, sets]
    simp [restartSource]
  · rw [sets]
    exact List.nodup_nil
  · rw [src]
    simp [restartSource]

/-- R122: what SET_SOURCE stores for a quiet source is legal. -/
theorem sourceOk_stored {c : Nat} {r : SourceRec} (own : SourceOk c r) (quiet : r.st = .quiet) (mode : SrcMode) (priority : Nat)
    (action : Action) (masked : Bool) : SourceOk c (storedSource r mode priority action masked) := by
  have idle := own.quiet quiet
  have once : r.rep ≠ true := fun rep => absurd (quiet.symm.trans (own.rep rep)) (by simp)
  cases action <;>
    exact
      { priority := by simp only [storedSource]; omega
        stop := by simp [storedSource]
        retract := by simp [storedSource, Nat.min_le_left]
        masked := fun _ => quiet
        quiet := fun _ => idle
        pending := fun e => absurd (quiet.symm.trans e) (by simp)
        service := fun e => absurd (quiet.symm.trans e) (by simp)
        rep := fun rep => absurd rep once }

theorem actionsOk_stored (quiet : (s.trips.src.get x).st = .quiet) (mode : SrcMode) (priority : Nat) (action : Action)
    (masked : Bool) (h : ActionsOk s) :
    ActionsOk (setSource x (storedSource (s.trips.src.get x) mode priority action masked) s) := by
  obtain ⟨ok, range⟩ := (actionsOk_iff s).mp h
  have own := h.trips.source x
  have idle := own.quiet quiet
  have kept : (storedSource (s.trips.src.get x) mode priority action masked).st = (s.trips.src.get x).st ∧
      (storedSource (s.trips.src.get x) mode priority action masked).acted = (s.trips.src.get x).acted := by
    cases action <;> exact ⟨rfl, rfl⟩
  refine (actionsOk_iff _).mpr ⟨?_, range⟩
  rw [acts_setSource]
  refine ok.replace ((sourceOk_core_iff _ _).mpr (sourceOk_stored own quiet mode priority action masked)) ?_ ?_ ?_ ?_
  · rw [acts_src]
    exact kept.2
  · rw [acts_src]
    exact fun acted => absurd (idle.symm.trans acted) (by simp)
  · rw [acts_src]
    exact fun e => absurd (quiet.symm.trans e) (by simp)
  · exact fun e => absurd (quiet.symm.trans (kept.1.symm.trans e)) (by simp)

/-- R109, R126: the source records after a reset, by the defaults' table. -/
theorem reset_source (x : Source) :
    let r := Trips.reset.src.get x
    r.st = .quiet ∧ r.acted = false ∧ r.rep = false ∧ r.masked = false ∧ r.priority ≤ 7 ∧ (r.action = .stop → r.priority = 0) ∧
      (r.action = .retract → r.priority ≤ 1) := by
  cases x with
  | overload k => cases k <;> decide
  | position k => cases k <;> decide
  | estop e => cases e <;> decide
  | _ => decide

theorem sourceOk_reset (x : Source) : SourceOk 8 (Trips.reset.src.get x) := by
  obtain ⟨quiet, idle, once, unmasked, priority, stop, retract⟩ := reset_source x
  exact
    { priority := priority
      stop := fun e => ⟨stop e, unmasked⟩
      retract := fun e => ⟨retract e, unmasked⟩
      masked := fun _ => quiet
      quiet := fun _ => idle
      pending := fun e => absurd (quiet.symm.trans e) (by simp)
      service := fun e => absurd (quiet.symm.trans e) (by simp)
      rep := fun e => absurd (once.symm.trans e) (by simp) }

/-- R109, R126, R142: out of a reset, every source is quiet with its defaults, no set has an entry, and the line is asserted. -/
theorem actionsOk_reset (trips : t.trips = .reset) (sets : t.ilk.sets = .fill []) : ActionsOk t := by
  have idle (x : Source) : (Trips.reset.src.get x).acted = false := (reset_source x).2.1
  have quiet (x : Source) : (Trips.reset.src.get x).st = .quiet := (reset_source x).1
  refine ⟨⟨?_, ?_, fun x => ?_, ?_⟩, fun k x a => ?_, fun k => ?_, fun x => ?_⟩
  · rw [trips]
    exact sourceOk_reset
  · rw [trips]
    decide
  · rw [trips, quiet]
    simp [Trips.reset]
  · rw [trips]
    exact List.Pairwise.nil
  · rw [trips, sets, idle]
    simp
  · rw [sets, PerStand.get_fill]
    exact List.nodup_nil
  · rw [trips, idle]
    simp
end

theorem actionsOk_evalAttn {s : State} (h : ActionsOk s) : ActionsOk (evalAttn s) := actionsOk_congr (s := s) rfl h

theorem actionsOk_gears : Gears ActionsOk where
  gearless same h := actionsOk_congr (acts_of_gearless same) h
  link _ h := actionsOk_congr (by rfl) h
  live b _ h := actionsOk_congr (acts_setLive _ b _) h

theorem actionsOk_edged : Edged ActionsOk where
  latch quiet unmasked h := actionsOk_latch quiet unmasked h
  again service h := actionsOk_again service h
  live := actionsOk_gears.live

/-- R108 to R132: the trips' operations keep their records, the stack, the sets and the line in agreement. -/
theorem actionsOk_geared : Geared ActionsOk where
  toGears := actionsOk_gears
  attn h := actionsOk_evalAttn h
  latch := actionsOk_edged.latch
  again := actionsOk_edged.again
  ceiling low high h := actionsOk_evalAttn (actionsOk_ceiling low high h)
  take sel h := actionsOk_take sel h
  ends on h := actionsOk_endService on h
  clearStop := by
    intro s none h
    refine ⟨h.trips, h.entry, h.once, fun x stop acted => ?_⟩
    have : stopActed s = true := (stopActed_iff s).mpr ⟨x, stop, acted⟩
    rw [none] at this
    cases this
  restart := by
    intro s _ h
    exact actionsOk_evalAttn (actionsOk_latchChecks Source.all (actionsOk_gears.restartBlocks (actionsOk_restartCleared h)))
  record _ h := actionsOk_congr (by rfl) h
  inputs _ h := actionsOk_edged.derivedConditions (fun x b h => actionsOk_congr (acts_setLive x b _) h)
    (actionsOk_congr (by rfl) h)

theorem leaveReset_eq (cause : ResetCause) (s : State) :
    leaveReset cause s = { blocksAtReset cause s with link := (leaveReset cause s).link } := by
  unfold leaveReset
  dsimp only
  split <;> rfl

theorem actionsOk_steps : Steps ActionsOk where
  toWalk := actionsOk_geared.inner.walk
  reply _ _ h := actionsOk_congr (by rfl) h
  source r mode priority action masked _ quiet h := by
    refine actionsOk_congr (by rfl) (actionsOk_latchCheck _ ?_)
    exact actionsOk_congr (by rfl) (actionsOk_stored quiet mode priority action masked h)
  lines _ _ h := actionsOk_congr (by rfl) h
  queue _ h := actionsOk_congr (by rfl) h
  reset cause b _ := by
    rw [leaveReset_eq cause]
    exact actionsOk_reset rfl rfl
  held h := ⟨h.trips, h.entry, h.once, fun _ _ _ => rfl⟩
  time := by
    intro s free h
    refine actionsOk_congr ?_ h
    rw [millisecond, if_neg (by simp [free])]
    rfl

end Sys2Proof.Machine

namespace Sys2Proof
open Machine Safety

/-- Settles O57: acting, releasing, taking and ending keep the records, the stack, the sets and the line in agreement, the rest of the
machine leaves them, and a step is a walk through both. -/
theorem stepKeepsActionsOfActedSources : Obligations.StepKeepsActionsOfActedSources := by
  intro s t ok run
  exact actionsOk_steps.step run ok

end Sys2Proof
end

section
/-! R71, R81: the AGC states stay as the table derives them, with the trim within its limits. An engine's operation touches one stand's
engine alone, and where that changes what its AGC state is derived from the state is derived again. -/
namespace Sys2Proof.Machine
open Sys2Proof.Safety

/-! ### Operations on one stand's engine -/

/-- Of what AGC states are derived from, at most stand `k`'s engine has changed. -/
structure OnlyEngine (k : Stand) (s t : State) : Prop where
  gauge : t.gauge = s.gauge
  recs : t.chan.recs = s.chan.recs
  sets : t.ilk.sets = s.ilk.sets
  eng : ∀ j, j ≠ k → t.eng.get j = s.eng.get j

section
variable {k : Stand} {s t u : State}

theorem OnlyEngine.refl : OnlyEngine k s s := ⟨rfl, rfl, rfl, fun _ _ => rfl⟩

theorem OnlyEngine.trans (first : OnlyEngine k s t) (second : OnlyEngine k t u) : OnlyEngine k s u where
  gauge := second.gauge.trans first.gauge
  recs := second.recs.trans first.recs
  sets := second.sets.trans first.sets
  eng j other := (second.eng j other).trans (first.eng j other)

theorem onlyEngine_setEngine (k : Stand) (e : Engine) (s : State) : OnlyEngine k s (setEngine k e s) :=
  ⟨rfl, rfl, rfl, fun _ other => PerStand.get_set_ne _ _ other⟩

theorem onlyEngine_report (k : Stand) (r : Report) (s : State) : OnlyEngine k s (report r s) := ⟨rfl, rfl, rfl, fun _ _ => rfl⟩

theorem onlyEngine_freeSlot (k : Stand) (tag : Option Tag) (s : State) : OnlyEngine k s (freeSlot tag s) := by
  cases tag <;> exact ⟨rfl, rfl, rfl, fun _ _ => rfl⟩

theorem onlyEngine_clearPosErr (k : Stand) (s : State) : OnlyEngine k s (clearPosErr k s) :=
  (onlyEngine_setEngine k _ s).trans ⟨rfl, rfl, rfl, fun _ _ => rfl⟩

theorem onlyEngine_startMove (k : Stand) (m : Move) (s : State) : OnlyEngine k s (startMove k m s) := by
  rw [startMove_eq]
  exact onlyEngine_setEngine k _ s

theorem onlyEngine_checkPending (k : Stand) (s : State) : OnlyEngine k s (checkPending k s) := by
  rw [checkPending_eq]
  exact onlyEngine_setEngine k _ s

theorem onlyEngine_dropActive (k : Stand) (s : State) : OnlyEngine k s (dropActive k s) :=
  (onlyEngine_setEngine k _ s).trans (onlyEngine_clearPosErr k _)

theorem onlyEngine_finished (k : Stand) (m : Move) (st : MoveStatus) (s : State) : OnlyEngine k s (finished k m st s) := by
  unfold finished
  dsimp only
  split
  · exact (((onlyEngine_setEngine k _ s).trans (onlyEngine_freeSlot k m.tag _)).trans (onlyEngine_report k _ _)).trans
      (onlyEngine_clearPosErr k _)
  · exact ((onlyEngine_setEngine k _ s).trans (onlyEngine_freeSlot k m.tag _)).trans (onlyEngine_clearPosErr k _)

theorem onlyEngine_finishMove (k : Stand) (m : Move) (st : MoveStatus) (s : State) : OnlyEngine k s (finishMove k m st s) :=
  (onlyEngine_finished k m st s).trans (onlyEngine_checkPending k _)

theorem onlyEngine_makeWay (k : Stand) (s : State) : OnlyEngine k s (makeWay k s) := by
  unfold makeWay
  dsimp only
  split
  · exact (onlyEngine_setEngine k _ s).trans (onlyEngine_dropActive k _)
  · exact onlyEngine_setEngine k _ s

/-- R93, before the AGC state is derived: the way made, the move started or put at the back of the queue. -/
def placed (k : Stand) (m : Move) (s : State) : State :=
  let u := makeWay k s
  if startsAtOnce k u then startMove k m u
  else checkPending k (setEngine k { u.eng.get k with pending := (u.eng.get k).pending ++ [m] } u)

theorem takeMove_eq (k : Stand) (m : Move) (s : State) : takeMove k m s = deriveAgc k (placed k m s) := rfl

theorem onlyEngine_placed (k : Stand) (m : Move) (s : State) : OnlyEngine k s (placed k m s) := by
  unfold placed
  dsimp only
  refine (onlyEngine_makeWay k s).trans ?_
  split
  · exact onlyEngine_startMove k m _
  · exact (onlyEngine_setEngine k _ _).trans (onlyEngine_checkPending k _)

theorem onlyEngine_flushPending (k : Stand) (l : List Move) (s : State) : OnlyEngine k s (flushPending k l s) := by
  induction l generalizing s with
  | nil => exact .refl
  | cons m rest ih =>
    exact (((onlyEngine_setEngine k _ s).trans (onlyEngine_freeSlot k m.tag _)).trans (onlyEngine_report k _ _)).trans (ih _)

theorem onlyEngine_abortActive (k : Stand) (s : State) : OnlyEngine k s (abortActive k s) := by
  unfold abortActive
  repeat' split
  · exact .refl
  · exact onlyEngine_finishMove k _ _ s
  · exact onlyEngine_finishMove k _ _ s
  · exact onlyEngine_dropActive k s
  · exact .refl

theorem onlyEngine_startRetract (k : Stand) (s : State) : OnlyEngine k s (startRetract k s) := by
  unfold startRetract
  dsimp only
  split
  · exact .refl
  · exact onlyEngine_startMove k _ s

theorem onlyEngine_holdActive (k : Stand) (s : State) : OnlyEngine k s (holdActive k s) := by
  unfold holdActive
  dsimp only
  split
  · exact .refl
  · split
    · exact onlyEngine_setEngine k _ s
    · exact onlyEngine_setEngine k _ s
    · exact .refl
    · exact .refl

/-- R101, before the AGC state is derived. -/
def swept (k : Stand) (s : State) : State :=
  let u := abortActive k s
  startRetract k (flushPending k (u.eng.get k).pending u)

theorem retract_eq (k : Stand) (s : State) : retract k s = deriveAgc k (swept k s) := rfl

theorem onlyEngine_swept (k : Stand) (s : State) : OnlyEngine k s (swept k s) :=
  ((onlyEngine_abortActive k s).trans (onlyEngine_flushPending k _ _)).trans (onlyEngine_startRetract k _)

/-! ### The invariant but for some stands -/

/-- `GaugeOk`, but for the AGC states of some stands. -/
structure GaugeOkBut (l : List Stand) (s : State) : Prop where
  derived : ∀ k, k ∉ l → (s.gauge.stands.get k).st = agcStateOf s k
  trim : -2000 ≤ s.gauge.m ∧ s.gauge.m ≤ 2000
  noTrim : (s.gauge.stands.get .s6).href = none → s.gauge.m = 0

theorem gaugeOk_iff (s : State) : GaugeOk s ↔ GaugeOkBut [] s :=
  ⟨fun h => ⟨fun k _ => h.derived k, h.trim, h.noTrim⟩, fun h => ⟨fun k => h.derived k List.not_mem_nil, h.trim, h.noTrim⟩⟩

theorem gaugeOk_but (h : GaugeOk s) (l : List Stand) : GaugeOkBut l s := ⟨fun k _ => h.derived k, h.trim, h.noTrim⟩

theorem GaugeOkBut.congr {l : List Stand} (h : GaugeOkBut l s) (gauge : t.gauge = s.gauge)
    (same : ∀ k, k ∉ l → agcStateOf t k = agcStateOf s k) : GaugeOkBut l t where
  derived k out := by rw [gauge, same k out, h.derived k out]
  trim := by rw [gauge]; exact h.trim
  noTrim := by rw [gauge]; exact h.noTrim

theorem GaugeOkBut.onlyEngine (h : GaugeOkBut [k] s) (only : OnlyEngine k s t) : GaugeOkBut [k] t := by
  refine h.congr only.gauge fun j out => ?_
  have other : j ≠ k := by simpa using out
  exact agcStateOf_congr (by rw [only.gauge]) (by rw [only.gauge]) only.recs (by rw [only.sets]) (by rw [only.eng j other])

/-- R72: a derivation brings a stand's state to what the table gives, and no derivation depends on a state. -/
theorem GaugeOkBut.derive {l : List Stand} (h : GaugeOkBut (k :: l) s) : GaugeOkBut l (deriveAgc k s) := by
  have same (j : Stand) : agcStateOf (deriveAgc k s) j = agcStateOf s j := by
    refine agcStateOf_congr ?_ ?_ rfl rfl rfl <;>
    · simp only [deriveAgc, setAgc_gauge, PerStand.get_set]
      split <;> simp_all
  refine ⟨fun j out => ?_, h.trim, fun none => h.noTrim ?_⟩
  · rw [same]
    simp only [deriveAgc, setAgc_gauge, PerStand.get_set]
    split
    · subst j
      rfl
    · exact h.derived j (by simp [*])
  · simp only [deriveAgc, setAgc_gauge, PerStand.get_set] at none
    split at none <;> simp_all

theorem gaugeOk_derive (h : GaugeOkBut [k] s) : GaugeOk (deriveAgc k s) := (gaugeOk_iff _).mpr h.derive

/-- The invariant reads stands' AGC items, the trim, and what their states are derived from. -/
theorem gaugeOk_congr (h : GaugeOk s) (stands : t.gauge.stands = s.gauge.stands) (m : t.gauge.m = s.gauge.m)
    (same : ∀ k, agcStateOf t k = agcStateOf s k) : GaugeOk t where
  derived k := by rw [stands, same, h.derived]
  trim := by rw [m]; exact h.trim
  noTrim := by rw [stands, m]; exact h.noTrim

/-- An engine is written whose SETUP, LINK and RETRACT moves are there or not as before. -/
theorem gaugeOk_setEngine {e : Engine} (h : GaugeOk s) (planned : e.planned = (s.eng.get k).planned) :
    GaugeOk (setEngine k e s) := by
  refine gaugeOk_congr h rfl rfl fun j => agcStateOf_congr rfl rfl rfl rfl ?_
  rw [setEngine_eng, PerStand.get_set]
  split
  · subst j
    exact planned
  · rfl
end

end Sys2Proof.Machine
end

section
/-! The operations on stands keep the AGC states as derived and the trim within its limits. -/
namespace Sys2Proof.Machine
open Sys2Proof.Safety

section
variable {k : Stand} {s t : State}

/-- R71: the table reads the mode, whether there is a reference, the two channels, whether the set is blocking, and whether a move
is planned. -/
theorem agcStateOf_eq_of (mode : (t.gauge.stands.get k).mode = (s.gauge.stands.get k).mode)
    (href : (t.gauge.stands.get k).href = (s.gauge.stands.get k).href) (force : t.chanValid (.force k) = s.chanValid (.force k))
    (position : t.chanValid (.position k) = s.chanValid (.position k)) (blocked : t.blocked k = s.blocked k)
    (planned : (t.eng.get k).planned = (s.eng.get k).planned) : agcStateOf t k = agcStateOf s k := by
  simp [agcStateOf, mode, href, force, position, blocked, planned]

theorem planned_startMove (k : Stand) (m : Move) (s : State) :
    ((startMove k m s).eng.get k).planned = (m.origin != .feedback || !(s.eng.get k).pending.isEmpty) := by
  obtain ⟨a, act, left, active, move, started⟩ := startMove_eng k m s
  rw [started, setEngine_eng, PerStand.get_set_self]
  simp [Engine.planned, active, move]

/-- A FEEDBACK move starts where none but pending moves are planned. -/
theorem gaugeOk_startFeedback {m : Move} (origin : m.origin = .feedback)
    (planned : (s.eng.get k).planned = !(s.eng.get k).pending.isEmpty) (h : GaugeOk s) : GaugeOk (startMove k m s) := by
  have started := planned_startMove k m s
  rw [startMove_eq] at started ⊢
  rw [setEngine_eng, PerStand.get_set_self] at started
  refine gaugeOk_setEngine h (started.trans ?_)
  simp [origin, planned]

theorem gaugeOk_takeFeedback (k : Stand) (x : Int) (h : GaugeOk s) : GaugeOk (takeFeedback k x s) := by
  unfold takeFeedback
  dsimp only
  split
  · exact h
  · split
    · rename_i idle
      split
      · exact gaugeOk_startFeedback rfl (by simp [Engine.planned, idle, Activity.active?]) h
      · exact h
    · rename_i act
      split
      · rename_i origin
        exact gaugeOk_startFeedback origin (by simp [Engine.planned, act, Activity.active?, origin]) h
      · exact h
    · rename_i act
      split
      · rename_i origin
        exact gaugeOk_startFeedback origin (by simp [Engine.planned, act, Activity.active?, origin]) h
      · exact h
    · exact h

theorem gaugeOk_holdActive (k : Stand) (h : GaugeOk s) : GaugeOk (holdActive k s) := by
  unfold holdActive
  dsimp only
  split
  · exact h
  · split
    · exact gaugeOk_setEngine h (by simp [Engine.planned, *, Activity.active?])
    · exact gaugeOk_setEngine h (by simp [Engine.planned, *, Activity.active?])
    · exact h
    · exact h

theorem gaugeOk_resumeActive (k : Stand) (h : GaugeOk s) : GaugeOk (resumeActive k s) := by
  unfold resumeActive
  dsimp only
  split
  · exact gaugeOk_setEngine h (by simp [Engine.planned, *, Activity.active?])
  · exact gaugeOk_setEngine h (by simp [Engine.planned, *, Activity.active?])
  · exact h
  · exact h
  · exact h

theorem gaugeOk_update (k : Stand) (h : GaugeOk s) : GaugeOk (update k s) := by
  have ref {u : State} (v : Int) (ok : GaugeOk u) : GaugeOk (setRef k v u) := by
    refine gaugeOk_congr (s := setEngine k { u.eng.get k with ref := v } u) (gaugeOk_setEngine ok rfl) ?_ ?_ fun j => ?_
    · rw [setRef_eq]; rfl
    · rw [setRef_eq]; rfl
    · rw [setRef_eq]
      rfl
  unfold update
  dsimp only
  split
  · split
    · exact ref _ (gaugeOk_setEngine h (by simp [Engine.planned, *, Activity.active?]))
    · exact ref _ (gaugeOk_setEngine h (by simp [Engine.planned, *, Activity.active?]))
  · exact h
  · exact h
  · exact h

theorem gaugeOk_takeMove (k : Stand) (m : Move) (h : GaugeOk s) : GaugeOk (takeMove k m s) := by
  rw [takeMove_eq]
  exact gaugeOk_derive ((gaugeOk_but h [k]).onlyEngine (onlyEngine_placed k m s))

theorem gaugeOk_cancelPending (k : Stand) (m : Move) (h : GaugeOk s) : GaugeOk (cancelPending k m s) :=
  gaugeOk_derive ((gaugeOk_but h [k]).onlyEngine
    (((onlyEngine_setEngine k _ s).trans (onlyEngine_freeSlot k m.tag _)).trans (onlyEngine_report k _ _)))

/-- A stand's AGC items are written and its state derived. -/
theorem gaugeOk_setAgc_derive {g : AgcStand} (h : GaugeOk s) (trim : k = .s6 → g.href = none → s.gauge.m = 0) :
    GaugeOk (deriveAgc k (setAgc k g s)) := by
  refine gaugeOk_derive ⟨fun j out => ?_, h.trim, ?_⟩
  · have other : j ≠ k := by simpa using out
    rw [setAgc_gauge]
    dsimp only
    rw [PerStand.get_set_ne _ _ other, h.derived]
    have item : (setAgc k g s).gauge.stands.get j = s.gauge.stands.get j := PerStand.get_set_ne _ _ other
    exact agcStateOf_congr (by rw [item]) (by rw [item]) rfl rfl rfl
  · simp only [setAgc_gauge, PerStand.get_set]
    split
    · exact trim (Eq.symm ‹_›)
    · exact h.noTrim

/-- A stand's AGC items are written, but for what its state is derived from. -/
theorem gaugeOk_setAgc {g : AgcStand} (h : GaugeOk s) (mode : g.mode = (s.gauge.stands.get k).mode)
    (href : g.href = (s.gauge.stands.get k).href) (st : g.st = (s.gauge.stands.get k).st) : GaugeOk (setAgc k g s) := by
  have item (j : Stand) : ((setAgc k g s).gauge.stands.get j).mode = (s.gauge.stands.get j).mode ∧
      ((setAgc k g s).gauge.stands.get j).href = (s.gauge.stands.get j).href ∧
      ((setAgc k g s).gauge.stands.get j).st = (s.gauge.stands.get j).st := by
    simp only [setAgc_gauge, PerStand.get_set]
    split
    · subst j
      exact ⟨mode, href, st⟩
    · exact ⟨rfl, rfl, rfl⟩
  refine ⟨fun j => ?_, h.trim, fun none => h.noTrim ?_⟩
  · obtain ⟨mode, href, st⟩ := item j
    rw [st, h.derived]
    exact (agcStateOf_eq_of mode href rfl rfl rfl rfl).symm
  · exact (item .s6).2.1.symm.trans none

/-- R67, R70: a cleared reference, then the stand's items and the derivation. -/
theorem gaugeOk_clearReference {g : AgcStand} (h : GaugeOk s) :
    GaugeOk (deriveAgc k (setAgc k g (clearReference k s))) := by
  have stands : (setAgc k g (clearReference k s)).gauge.stands = s.gauge.stands.set k g := by
    rw [clearReference_eq]
    simp [withTrim]
  have m : (setAgc k g (clearReference k s)).gauge.m = if k = .s6 then 0 else s.gauge.m := by
    rw [clearReference_eq]
    rfl
  have rest : (setAgc k g (clearReference k s)).chan.recs = s.chan.recs ∧
      (setAgc k g (clearReference k s)).ilk.sets = s.ilk.sets ∧ (setAgc k g (clearReference k s)).eng = s.eng := by
    rw [clearReference_eq]
    exact ⟨rfl, rfl, rfl⟩
  obtain ⟨recs, sets, eng⟩ := rest
  have trim := h.trim
  refine gaugeOk_derive ⟨fun j out => ?_, ?_, fun free => ?_⟩
  · have other : j ≠ k := by simpa using out
    rw [stands, PerStand.get_set_ne _ _ other, h.derived]
    exact (agcStateOf_congr (by rw [stands, PerStand.get_set_ne _ _ other]) (by rw [stands, PerStand.get_set_ne _ _ other])
      recs (by rw [sets]) (by rw [eng])).symm
  · rw [m]
    split <;> omega
  · rw [m]
    rw [stands, PerStand.get_set] at free
    split
    · rfl
    · rename_i other
      rw [if_neg (Ne.symm other)] at free
      exact h.noTrim free

theorem gaugeOk_arrival (k : Stand) (g : Seg) (h : GaugeOk s) : GaugeOk (arrivalAtGauge k g s) := by
  unfold arrivalAtGauge
  split
  · refine gaugeOk_setAgc_derive h fun last none => ?_
    subst k
    refine h.noTrim ?_
    dsimp only at none
    split at none
    · split at none
      · cases none
      · exact none
    · exact none
  · unfold bodyAtGauge
    dsimp only
    split
    · exact gaugeOk_setAgc_derive (s := setTrk _ s) (gaugeOk_congr h rfl rfl fun _ => rfl) fun _ none => by cases none
    · exact gaugeOk_setAgc h rfl rfl rfl
  · unfold tailAtGauge
    exact gaugeOk_clearReference h

theorem gaugeOk_changeMode (k : Stand) (mode : AgcMode) (h : GaugeOk s) : GaugeOk (changeMode k mode s) := by
  unfold changeMode
  dsimp only
  split
  · exact h
  · exact gaugeOk_clearReference h

theorem gaugeOk_told (c : Channel) (r : ChannelRec) (h : GaugeOk s) : GaugeOk (toldGauge c (setChannel c r s)) := by
  have other {d : Channel} (apart : d ≠ c) : (setChannel c r s).chanValid d = s.chanValid d := by
    simp [State.chanValid, PerChannel.get_set, apart]
  have away (l : List Stand) (apart : ∀ k, k ∉ l → Channel.force k ≠ c ∧ Channel.position k ≠ c) :
      GaugeOkBut l (setChannel c r s) :=
    (gaugeOk_but h l).congr rfl fun k out => agcStateOf_eq_of rfl rfl (other (apart k out).1) (other (apart k out).2) rfl rfl
  cases c with
  | force k => exact gaugeOk_derive (away [k] fun j out => by simpa using out)
  | position k => exact gaugeOk_derive (away [k] fun j out => by simpa using out)
  | entry => exact (gaugeOk_iff _).mpr (away [] (by simp))
  | exit => exact (gaugeOk_iff _).mpr (away [] (by simp))

/-- R72, R129: after an action is applied, the stand's state has been derived if its set became blocking. -/
theorem gaugeOk_applyAt (x : Source) (a : Action) (k : Stand) (h : GaugeOk s) : GaugeOk (applyAt x a s k) := by
  have entered : GaugeOkBut [k] (setActions k (s.ilk.sets.get k ++ [{ source := x, action := a }]) s) := by
    refine (gaugeOk_but h [k]).congr rfl fun j out => ?_
    exact agcStateOf_congr rfl rfl rfl (PerStand.get_set_ne _ _ (by simpa using out)) rfl
  have blocked : (setActions k (s.ilk.sets.get k ++ [{ source := x, action := a }]) s).blocked k =
      (s.blocked k || a.isBlocking) := by
    simp [State.blocked]
  have asBefore : (a.isBlocking && !s.blocked k) = false →
      GaugeOk (setActions k (s.ilk.sets.get k ++ [{ source := x, action := a }]) s) := by
    intro settled
    refine gaugeOk_congr h rfl rfl fun j => ?_
    by_cases own : j = k
    · subst j
      refine agcStateOf_eq_of rfl rfl rfl rfl ?_ rfl
      rw [blocked]
      revert settled
      cases a.isBlocking <;> cases s.blocked k <;> simp
    · refine agcStateOf_congr rfl rfl rfl (PerStand.get_set_ne _ _ own) rfl
  unfold applyAt
  dsimp only
  generalize setActions k _ s = u at *
  have swept : GaugeOkBut [k] (if a.isRetractType && !s.retracting k then retract k (markUnderStand k u) else u) ∧
      ((a.isBlocking && !s.blocked k) = false →
        GaugeOk (if a.isRetractType && !s.retracting k then retract k (markUnderStand k u) else u)) := by
    split
    · have ok : GaugeOk (retract k (markUnderStand k u)) := by
        rw [retract_eq]
        refine gaugeOk_derive (GaugeOkBut.onlyEngine (entered.onlyEngine ?_) (onlyEngine_swept k _))
        unfold markUnderStand
        split
        · exact ⟨rfl, rfl, rfl, fun _ _ => rfl⟩
        · exact .refl
      exact ⟨gaugeOk_but ok _, fun _ => ok⟩
    · exact ⟨entered, asBefore⟩
  generalize (if a.isRetractType && !s.retracting k then retract k (markUnderStand k u) else u) = v at *
  obtain ⟨but, settled⟩ := swept
  have held : GaugeOkBut [k] (if a = .hold ∧ !v.retracting k then holdActive k v else v) ∧
      ((a.isBlocking && !s.blocked k) = false → GaugeOk (if a = .hold ∧ !v.retracting k then holdActive k v else v)) := by
    split
    · exact ⟨but.onlyEngine (onlyEngine_holdActive k v), fun same => gaugeOk_holdActive k (settled same)⟩
    · exact ⟨but, settled⟩
  split
  · exact gaugeOk_derive held.1
  · rename_i same
    exact held.2 ((Bool.not_eq_true _).mp same)

theorem gaugeOk_releaseAt (x : Source) (k : Stand) (h : GaugeOk s) : GaugeOk (releaseAt x s k) := by
  have left : GaugeOkBut [k] (setActions k ((s.ilk.sets.get k).filter fun e => e.source != x) s) := by
    refine (gaugeOk_but h [k]).congr rfl fun j out => ?_
    exact agcStateOf_congr rfl rfl rfl (PerStand.get_set_ne _ _ (by simpa using out)) rfl
  unfold releaseAt
  dsimp only
  split
  · rename_i still
    have before : s.blocked k = true := by
      simp only [State.blocked, setActions_ilk, PerStand.get_set_self, List.any_eq_true] at still ⊢
      obtain ⟨e, on, blocks⟩ := still
      exact ⟨e, (List.mem_filter.mp on).1, blocks⟩
    refine gaugeOk_congr h rfl rfl fun j => ?_
    by_cases own : j = k
    · subst j
      exact agcStateOf_eq_of rfl rfl rfl rfl (still.trans before.symm) rfl
    · exact agcStateOf_congr rfl rfl rfl (PerStand.get_set_ne _ _ own) rfl
  · exact gaugeOk_derive (left.onlyEngine (onlyEngine_checkPending k _))

/-- Deriving every stand's state leaves none that is not derived. -/
theorem gaugeOk_deriveAll (l : List Stand) (h : GaugeOkBut l s) : GaugeOk (l.foldl (fun u k => deriveAgc k u) s) := by
  induction l generalizing s with
  | nil => exact (gaugeOk_iff _).mpr h
  | cons k l ih => exact ih h.derive

theorem gaugeOk_restartBlocks (s : State) : GaugeOk (restartBlocks s) := by
  rw [restartBlocks_eq]
  exact gaugeOk_deriveAll _ ⟨fun k out => absurd (Stand.mem_all k) out,
    ⟨by show (-2000 : Int) ≤ 0; decide, by show (0 : Int) ≤ 2000; decide⟩, fun _ => rfl⟩
end

theorem gaugeOk_stands : Stands GaugeOk where
  standsOnly := by
    intro s t same h
    have stands : t.gauge.stands = s.gauge.stands := by have e := congrArg (fun u => u.gauge.stands) same; exact e
    have m : t.gauge.m = s.gauge.m := by have e := congrArg (fun u => u.gauge.m) same; exact e
    have recs : t.chan.recs = s.chan.recs := by have e := congrArg (fun u => u.chan.recs) same; exact e
    have sets : t.ilk.sets = s.ilk.sets := by have e := congrArg (fun u => u.ilk.sets) same; exact e
    have eng : t.eng = s.eng := by have e := congrArg State.eng same; exact e
    exact gaugeOk_congr h stands m fun k =>
      agcStateOf_congr (by rw [stands]) (by rw [stands]) recs (by rw [sets]) (by rw [eng])
  applyAt x a k h := gaugeOk_applyAt x a k h
  releaseAt x k h := gaugeOk_releaseAt x k h
  blocks _ _ := gaugeOk_restartBlocks _
  record := by
    intro s c r st h
    have valid (d : Channel) : (setChannel c r s).chanValid d = s.chanValid d := by
      simp only [State.chanValid, setChannel_chan, PerChannel.get_set]
      split <;> simp_all
    exact gaugeOk_congr h rfl rfl fun k => agcStateOf_eq_of rfl rfl (valid _) (valid _) rfl rfl
  told c r h := gaugeOk_told c r h
  setup := by
    intro s k gap h
    rw [issueSetup_eq]
    repeat' split
    · exact gaugeOk_congr h rfl rfl fun _ => rfl
    · exact gaugeOk_congr h rfl rfl fun _ => rfl
    · exact gaugeOk_takeMove k _ h
  feedback k x h := gaugeOk_takeFeedback k _ h
  finish st _ h := gaugeOk_derive ((gaugeOk_but h _).onlyEngine (onlyEngine_finishMove _ _ st _))
  posErr k n h := gaugeOk_setEngine h rfl
  update k h := gaugeOk_update k h
  hold k h := gaugeOk_holdActive k h
  resume k h := gaugeOk_resumeActive k h
  cancel _ _ _ h := gaugeOk_cancelPending _ _ h
  move _ _ _ _ _ h := gaugeOk_takeMove _ _ (gaugeOk_congr h rfl rfl fun _ => rfl)
  settings _ _ h := gaugeOk_setEngine h rfl
  flags k a b h := gaugeOk_setAgc h rfl rfl rfl
  mode k mode h := gaugeOk_changeMode k mode h
  arrival k g h := gaugeOk_arrival k g h
  trim := by
    intro s m active h
    have bounds := clamp_bounds (lo := -2000) (hi := 2000) (by omega) m
    refine ⟨fun k => h.derived k, bounds, fun none => ?_⟩
    have suspended := h.derived .s6
    have absent : (s.gauge.stands.get .s6).href = .none := none
    rw [active] at suspended
    simp only [agcStateOf, absent, Option.isNone_none, if_true] at suspended
    split at suspended <;> cases suspended

theorem gaugeOk_steps : StandSteps GaugeOk where
  toStands := gaugeOk_stands
  pinned _ _ h := gaugeOk_congr h rfl rfl fun _ => rfl
  reset cause b _ := by
    rw [leaveReset_eq cause]
    refine ⟨fun k => ?_, ⟨by show (-2000 : Int) ≤ 0; decide, by show (0 : Int) ≤ 2000; decide⟩, fun _ => rfl⟩
    cases k <;> rfl
  time := by
    intro s free h
    have valid (c : Channel) : (millisecond s).chanValid c = s.chanValid c := by
      simp [millisecond, free, State.chanValid]
    refine gaugeOk_congr h (by simp [millisecond, free]) (by simp [millisecond, free]) fun k => ?_
    refine agcStateOf_eq_of ?_ ?_ (valid _) (valid _) ?_ ?_
    · simp [millisecond, free]
    · simp [millisecond, free]
    · simp [millisecond, free, State.blocked]
    · rw [millisecond_eng free]
      rfl

end Sys2Proof.Machine
end

section
/-! What stores and spans invariants read: an outline of the tracking unit, the schedule store, the channels' states and the trip
controller's inputs. The relation `Outline.Next` says what an event can do to it; most operations leave it as it is. -/
namespace Sys2Proof.Machine
open Sys2Proof.Safety

/-- The channels' states, the tracking unit's shape, the fill of the schedule queue, the coil records' keys with the next key, and the
inputs the trip controller keeps. -/
structure Outline where
  st : PerChannel ChanState
  shape : TrackShape
  schedules : Nat
  keys : List Nat
  nextKey : Nat
  inputs : TripInputs

def State.outline (s : State) : Outline where
  st := .ofFn fun c => (s.chan.recs.get c).st
  shape := s.trk.shape
  schedules := s.sched.queue.length
  keys := s.sched.coils.map Coil.key
  nextKey := s.sched.nextKey
  inputs := s.trips.inputs

/-- The number of records in use: those in the span queues and the one under point 7. -/
def TrackShape.used (t : TrackShape) : Nat := (t.dists.toList.map List.length).sum + t.exitKind.toList.length

/-- R34: the distance to go with which a record enters the span after stand `j`. -/
def TrackShape.entering (t : TrackShape) (j : Stand) (past : Int) : Int :=
  let own := max ((t.spanLen.after.get j : Int) - past) 0
  match (t.dists.get (.after j)).getLast? with
  | some d => max own d
  | none => own

def TrackShape.withDists (t : TrackShape) (k : Span) (l : List Int) : TrackShape := { t with dists := t.dists.set k l }

/-- R30: a record born joins span queue 0 with the whole span to go. -/
def TrackShape.bear (t : TrackShape) : TrackShape := t.withDists .entry (t.dists.entry ++ [(t.spanLen.entry : Int)])

def Outline.withShape (o : Outline) (t : TrackShape) : Outline := { o with shape := t }

/-- R28, R110: the debounced strip-present state, with what the trip controller keeps of it. -/
def Outline.withStrip (o : Outline) (b : Bool) : Outline :=
  { o with shape := { o.shape with strip := b }, inputs := { o.inputs with strip := b } }

/-- R54, R55: a coil admitted. -/
def Outline.withCoil (o : Outline) : Outline :=
  { o with schedules := o.schedules - 1, keys := o.keys ++ [o.nextKey], nextKey := o.nextKey + 1 }

/-- R29 to R32: what a debounced rising or falling makes of the entry. -/
inductive Outline.Turn (o : Outline) : Outline → Prop
  | none : Turn o o
  | rejected : o.shape.entry = .empty → Turn o (o.withShape { o.shape with entry := .rejected })
  | admitted : o.shape.entry = .empty → o.keys.length < 4 → o.shape.used ≤ 62 →
      Turn o (o.withCoil.withShape { o.shape.bear with entry := .admitted })
  | emptied : Turn o (o.withShape { o.shape with entry := .empty })
  | fallen : o.shape.entry = .admitted → Turn o (o.withShape { o.shape.bear with entry := .empty })

/-- What an event can do to the outline. -/
inductive Outline.Next (o : Outline) : Outline → Prop
  | same : Next o o
  | channel (c : Channel) (st : ChanState) :
      Next o { o with st := o.st.set c st, inputs := { o.inputs with chan := o.inputs.chan.set c st } }
  | nearer (k : Span) (d : Nat) : Next o (o.withShape (o.shape.withDists k ((o.shape.dists.get k).map (· - (d : Int)))))
  | enters {k : Span} {j : Stand} {d : Int} {rest : List Int} {past : Int} : o.shape.dists.get k = d :: rest →
      k.downstream = .stand j → 0 ≤ past →
      Next o (o.withShape (let t := o.shape.withDists k rest
        t.withDists (.after j) (t.dists.get (.after j) ++ [t.entering j past])))
  | exits {k : Span} {d : Int} {rest : List Int} {kind : Option Kind} {keys : List Nat} : o.shape.dists.get k = d :: rest →
      keys.Sublist o.keys →
      Next o { o with
        shape := { o.shape.withDists k rest with exitKind := kind }
        keys := keys
        inputs := { o.inputs with exitKind := kind } }
  | born : o.shape.used ≤ 59 → Next o (o.withShape o.shape.bear)
  | turned {o' : Outline} (b : Bool) : o.Turn o' → Next o (o'.withStrip b)
  | resized (k : Span) (n : Nat) : o.shape.used = 0 →
      Next o (o.withShape { o.shape with spanLen := o.shape.spanLen.set k n })
  | loaded : o.schedules < 4 → Next o { o with schedules := o.schedules + 1 }
  | flushed : Next o { o with schedules := 0 }
  | restarted (st : PerChannel ChanState) :
      Next o { o with
        st := st
        shape := { o.shape with dists := .fill [], exitKind := none, entry := if o.shape.strip then .rejected else .empty }
        keys := []
        inputs := { chan := st, exitKind := none, strip := o.shape.strip } }

/-! ### What leaves the outline as it is -/

theorem TrackShape.used_eq (t : Tracking) : t.shape.used = t.used := by
  have lengths : (t.shape.dists.toList.map List.length) = t.queues.toList.map List.length := by
    simp [Tracking.shape, PerSpan.toList, PerStand.toList, PerSpan.ofFn, PerStand.ofFn, PerSpan.get, PerStand.get]
  have exit : t.shape.exitKind.toList.length = t.underExit.toList.length := by
    cases e : t.underExit <;> simp [Tracking.shape, e]
  rw [used, lengths, exit, Tracking.used, Tracking.segs]
  simp [List.length_flatMap]

theorem Tracking.shape_dists (t : Tracking) (k : Span) : t.shape.dists.get k = (t.queues.get k).map Queued.dist := by
  cases k <;> simp [Tracking.shape, PerSpan.ofFn, PerSpan.get]

theorem Tracking.shape_plain (t : Tracking) : t.plain.shape = t.shape := by
  refine Tracking.shape_eq rfl (fun k => ?_) ?_ rfl rfl
  · simp only [Tracking.plain, PerSpan.get_ofFn, List.map_map]
    rfl
  · simp only [Tracking.plain, Option.map_map]
    rfl

section
variable {s t : State}

theorem outline_of_calm (h : t.calm = s.calm) : t.outline = s.outline := by
  have shape : t.trk.shape = s.trk.shape := by rw [← t.trk.shape_plain, ← s.trk.shape_plain, trk_of_calm h]
  simp only [State.outline, chan_of_calm h, shape, sched_of_calm h, inputs_of_calm h]

theorem outline_setTrk {u : Tracking} (same : u.shape = s.trk.shape) : (setTrk u s).outline = s.outline := by
  simp only [State.outline, setTrk_chan, setTrk_trk, setTrk_sched, setTrk_trips, same]

theorem outline_mapCoil (key : Nat) {f : Coil → Coil} (kept : ∀ c, (f c).key = c.key) (s : State) :
    (mapCoil key f s).outline = s.outline := by
  have keys : (s.sched.coils.map fun c => if c.key = key then f c else c).map Coil.key = s.sched.coils.map Coil.key := by
    rw [List.map_map]
    refine List.map_congr_left fun c _ => ?_
    simp only [Function.comp_apply]
    split
    · exact kept c
    · rfl
  simp only [State.outline, mapCoil, setSched_chan, setSched_trk, setSched_sched, setSched_trips, keys]

@[simp] theorem outline_setHeadProgress (key : Nat) (p : Point) (s : State) : (setHeadProgress key p s).outline = s.outline :=
  outline_mapCoil key (by intro _; rfl) s

@[simp] theorem outline_setTailProgress (key : Nat) (p : Point) (s : State) : (setTailProgress key p s).outline = s.outline :=
  outline_mapCoil key (by intro _; rfl) s

@[simp] theorem outline_report (r : Report) (s : State) : (report r s).outline = s.outline := rfl
@[simp] theorem outline_deriveAgc (k : Stand) (s : State) : (deriveAgc k s).outline = s.outline := rfl
@[simp] theorem outline_edge (x : Source) (s : State) : (edge x s).outline = s.outline := outline_of_calm (calm_edge s x)

@[simp] theorem outline_setupAt (key : Nat) (sch : Schedule) (k : Stand) (s : State) :
    (setupAt key sch s k).outline = s.outline :=
  (outline_of_calm (calm_issueSetup k _ _)).trans (outline_mapCoil key (by intro _; rfl) s)

@[simp] theorem outline_setupsAtBirth (key : Nat) (s : State) : (setupsAtBirth key s).outline = s.outline := by
  unfold setupsAtBirth
  dsimp only
  split
  · rfl
  · rename_i scheduled
    clear scheduled
    generalize List.filter _ Stand.all = l
    induction l generalizing s with
    | nil => rfl
    | cons k l ih => rw [List.foldl_cons, ih, outline_setupAt]

@[simp] theorem outline_setupAtTail (k : Stand) (key : Nat) (s : State) : (setupAtTail k key s).outline = s.outline := by
  unfold setupAtTail
  repeat' split
  all_goals simp

@[simp] theorem outline_clearReference (k : Stand) (s : State) : (clearReference k s).outline = s.outline := by
  rw [clearReference_eq]
  rfl

theorem outline_arrivalAtGauge (k : Stand) (g : Seg) (s : State) : (arrivalAtGauge k g s).outline = s.outline := by
  unfold arrivalAtGauge
  split
  · rfl
  · unfold bodyAtGauge
    dsimp only
    split
    · exact outline_setTrk (s := s) (s.trk.shape_mapSeg g.id (by intro _; rfl))
    · rfl
  · exact outline_clearReference k s

@[simp] theorem outline_startWatches (k : Stand) (kind : Kind) (s : State) : (startWatches k kind s).outline = s.outline := by
  unfold startWatches
  repeat' split
  · rfl
  · rw [outline_edge]
    rfl
  · rfl
  · rfl
  · rfl
  · rfl

@[simp] theorem outline_markArrival (k : Stand) (g : Seg) (s : State) : (markArrival k g s).outline = s.outline := by
  unfold markArrival
  generalize g.kind = kind
  cases kind <;> simp

theorem Tracking.shape_closeAcc (t : Tracking) (p : Point) : (t.closeAcc p).shape = t.shape := by
  have cleared (u : Tracking) (a : PerPoint Acc) : ({ u with acc := a } : Tracking).shape = u.shape := rfl
  unfold closeAcc
  dsimp only
  rw [cleared]
  split
  · exact t.shape_mapSeg _ (by intro _; rfl)
  · rfl

@[simp] theorem outline_monitor (done : Seg) (s : State) : (monitor done s).outline = s.outline := by
  unfold monitor
  dsimp only
  repeat' split
  · rfl
  · rfl
  · rw [outline_edge]
    rfl
  · rfl

@[simp] theorem outline_offerMonitor (done : Option Seg) (s : State) : (offerMonitor done s).outline = s.outline := by
  unfold offerMonitor
  split <;> simp

/-! ### What arrivals and births do to it -/

theorem outline_inputs (i : TripInputs) (s : State) :
    (derivedConditions { s with trips := { s.trips with inputs := i } }).outline = { s.outline with inputs := i } :=
  outline_of_calm (calm_derivedConditions _)

theorem shape_popFront {k : Span} {q : Queued} {rest : List Queued} (queue : s.trk.queues.get k = q :: rest) :
    (popFront k s).trk.shape = s.trk.shape.withDists k (rest.map Queued.dist) := by
  simp only [popFront, setTrk_trk, Tracking.shape, TrackShape.withDists, queue, List.tail_cons, TrackShape.mk.injEq, and_true,
    true_and]
  exact PerSpan.eq_of_get fun j => by
    simp only [PerSpan.get_ofFn, PerSpan.get_set]
    split <;> rfl

theorem shape_enterSpan (k : Stand) (g : Seg) (past : Int) (t : Tracking) :
    (enterSpan k g past t).shape =
      t.shape.withDists (.after k) (t.shape.dists.get (.after k) ++ [t.shape.entering k past]) := by
  have entering : enterDist t k past = t.shape.entering k past := by
    have dists : t.shape.dists.get (.after k) = (t.queues.after.get k).map Queued.dist :=
      t.shape_dists (.after k)
    simp only [enterDist, TrackShape.entering, dists, List.getLast?_map]
    cases (t.queues.after.get k).getLast? <;> rfl
  rw [← entering]
  simp only [enterSpan, Tracking.shape, TrackShape.withDists, TrackShape.mk.injEq, and_true, true_and]
  exact PerSpan.eq_of_get fun j => by
    simp only [PerSpan.get_ofFn, PerSpan.get_set]
    split <;> simp

theorem outline_arriveAtStand (k : Stand) (g : Seg) (past : Int) (byLength : Bool) (s : State) :
    (arriveAtStand k g past byLength s).outline = s.outline.withShape (enterSpan k g past s.trk).shape := by
  unfold arriveAtStand
  dsimp only
  have entered : (setTrk { (enterSpan k g past s.trk).closeAcc (.stand k) with
      underStand := ((enterSpan k g past s.trk).closeAcc (.stand k)).underStand.set k (some g.id) } s).outline =
      s.outline.withShape (enterSpan k g past s.trk).shape := by
    have shape := Tracking.shape_closeAcc (enterSpan k g past s.trk) (.stand k)
    simp only [State.outline, Outline.withShape, setTrk_chan, setTrk_trk, setTrk_sched, setTrk_trips, ← shape]
    rfl
  have under := (outline_markArrival k g _).trans entered
  generalize markArrival k g _ = u at *
  have marked : (if u.blocked k then markOffGauge g.id u else u).outline = u.outline := by
    split
    · exact outline_of_calm (calm_markOffGauge u g.id)
    · rfl
  generalize (if u.blocked k then markOffGauge g.id u else u) = v at *
  have watched : (if byLength then startWatches k g.kind v else v).outline = v.outline := by
    split <;> simp
  generalize (if byLength then startWatches k g.kind v else v) = x at *
  rw [← under, ← marked, ← watched]
  split
  · rw [outline_setupAtTail, outline_arrivalAtGauge]
  · rw [outline_arrivalAtGauge]

theorem outline_completeAtExit (s : State) :
    (completeAtExit s).outline = s.outline.withShape { s.trk.shape with exitKind := none } := by
  have shape := s.trk.shape_closeAcc .exit
  have freed (u : Tracking) (id : Nat) : ({ u with underExit := none }.dropRefs id).shape = { u.shape with exitKind := none } :=
    rfl
  unfold completeAtExit
  dsimp only
  split
  · rename_i empty
    have none : s.trk.shape.exitKind = none := by
      rw [← shape]
      simp [Tracking.shape, empty]
    rw [outline_setTrk shape]
    simp only [Outline.withShape, ← none]
    rfl
  · have closed : (setTrk (s.trk.closeAcc .exit) s).outline = s.outline := outline_setTrk shape
    have counted (u : State) (same : u.outline = s.outline) (id : Nat) :
        (setTrk ({ u.trk with underExit := none }.dropRefs id) u).outline =
          s.outline.withShape { s.trk.shape with exitKind := none } := by
      have trk : u.trk.shape = s.trk.shape := congrArg Outline.shape same
      show (Outline.withShape u.outline _) = _
      rw [same, setTrk_trk, freed, trk]
    refine counted _ ?_ _
    split
    · exact (outline_mapCoil _ (by intro _; rfl) _).trans closed
    · exact closed

theorem outline_endCoil (key : Nat) (s : State) :
    (endCoil key s).outline = { s.outline with keys := s.outline.keys.filter fun n => n != key } := by
  have progress := outline_setTailProgress key .exit s
  unfold endCoil
  dsimp only
  generalize setTailProgress key .exit s = u at *
  rw [← progress]
  split
  · rename_i absent
    have all : (u.outline.keys.filter fun n => n != key) = u.outline.keys := by
      rw [List.filter_eq_self]
      intro n hn
      obtain ⟨c, hc, rfl⟩ := List.mem_map.mp hn
      have := List.find?_eq_none.mp absent c hc
      simpa using this
    rw [all]
  · show ({ u.outline with keys := (u.sched.coils.filter fun d => d.key != key).map Coil.key } : Outline) = _
    have keys : (u.sched.coils.filter fun d => d.key != key).map Coil.key = u.outline.keys.filter fun n => n != key := by
      rw [State.outline, List.filter_map]
      rfl
    rw [keys]

/-- R36, R37: an arrival at the exit gauge: what is under point 7 is told the trip controller, and a TAIL's coil leaves the table. -/
theorem outline_arriveAtExit (g : Seg) (s : State) :
    ∃ kind keys, keys.Sublist s.outline.keys ∧
      (arriveAtExit g s).outline =
        { s.outline with
          shape := { s.trk.shape with exitKind := kind }
          keys := keys
          inputs := { s.trips.inputs with exitKind := kind } } := by
  have completed := outline_completeAtExit s
  have told (kind : Option Kind) (u : State) :
      (tripExitKind kind u).outline = { u.outline with inputs := { u.outline.inputs with exitKind := kind } } :=
    outline_inputs _ u
  unfold arriveAtExit
  dsimp only
  generalize completeAtExit s = u at *
  have under (f : Tracking) (kind : Option Kind) (shape : f.shape = { u.trk.shape with exitKind := kind }) :
      (setTrk f u).outline = s.outline.withShape { s.trk.shape with exitKind := kind } := by
    have trk : u.trk.shape = { s.trk.shape with exitKind := none } := congrArg Outline.shape completed
    show Outline.withShape u.outline _ = _
    rw [completed, setTrk_trk, shape, trk]
    rfl
  split
  · refine ⟨none, _, List.filter_sublist (p := fun n => n != g.coilKey), ?_⟩
    have dropped := under (u.trk.dropRefs g.id) none (by
      have trk : u.trk.shape = { s.trk.shape with exitKind := none } := congrArg Outline.shape completed
      show u.trk.shape = _
      rw [trk])
    rw [told, outline_offerMonitor, outline_endCoil, dropped]
    rfl
  · refine ⟨some .head, _, List.Sublist.refl _, ?_⟩
    have head := under { u.trk with underExit := some g } (some .head) (by simp [Tracking.shape, *])
    rw [told, outline_offerMonitor, outline_setHeadProgress, head]
    rfl
  · refine ⟨some .body, _, List.Sublist.refl _, ?_⟩
    have body := under { u.trk with underExit := some g } (some .body) (by simp [Tracking.shape, *])
    rw [told, outline_offerMonitor, body]
    rfl

theorem shape_bear (kind : Kind) (c : Coil) (t : Tracking) : (bear kind c t).shape = t.shape.bear := by
  have closed : (closeAtEntry t).shape = t.shape := by
    unfold closeAtEntry
    split
    · split
      · rfl
      · exact (Tracking.shape_mapSeg _ _ (by intro _; rfl)).trans (t.shape_closeAcc .entry)
    · rfl
  rw [← closed]
  unfold bear
  generalize closeAtEntry t = u
  simp only [Tracking.shape, TrackShape.bear, TrackShape.withDists, TrackShape.mk.injEq, and_true, true_and]
  exact PerSpan.eq_of_get fun j => by
    simp only [PerSpan.get_ofFn, PerSpan.get_set]
    split
    · subst j
      simp [PerSpan.ofFn]
    · rfl

/-- R30: a birth for the newest coil, if there is one. -/
theorem outline_birth (kind : Kind) {s : State} (coils : s.outline.keys ≠ []) :
    (birth kind s).outline = s.outline.withShape s.trk.shape.bear := by
  have counted (c d : Coil) : (countBirth kind d).key = d.key := by cases kind <;> rfl
  unfold birth
  split
  · rename_i none
    rw [List.getLast?_eq_none_iff] at none
    simp [State.outline, none] at coils
  · rename_i c _
    have born : (mapCoil c.key (countBirth kind) (setTrk (bear kind c s.trk) s)).outline =
        s.outline.withShape s.trk.shape.bear := by
      rw [outline_mapCoil c.key (counted c)]
      show Outline.withShape s.outline _ = _
      rw [setTrk_trk, shape_bear]
    dsimp only
    split
    · rw [outline_setupsAtBirth, born]
    · exact born

theorem birth_of_none (kind : Kind) {s : State} (none : s.outline.keys = []) : birth kind s = s := by
  have coils : s.sched.coils = [] := by simpa [State.outline] using none
  simp [birth, coils]
end

end Sys2Proof.Machine
end

section
/-! Every event does to the outline what `Outline.Next` says, so that a step keeps what `Outline.Next` keeps. -/
namespace Sys2Proof.Machine
open Sys2Proof.Safety

section
variable {s t : State}

/-! ### Events -/

theorem next_of_same {o : Outline} (same : t.outline = o) : Outline.Next o t.outline := by
  rw [same]
  exact .same

theorem next_channel {c : Channel} {r : ChannelRec} {l : Link} (b o : PerStand Bool) (s : State) :
    s.outline.Next (handState c { s with chan := { recs := s.chan.recs.set c r, biteIn := b, overload := o }, link := l }).outline := by
  rw [handState_eq]
  have told (u : State) : (toldGauge c u).outline = u.outline := by cases c <;> rfl
  have handed (st : ChanState) (u : State) :
      (tripChannel c st u).outline = { u.outline with inputs := { u.outline.inputs with chan := u.outline.inputs.chan.set c st } } :=
    outline_inputs _ u
  rw [handed, told]
  have states : (PerChannel.ofFn fun d => ((s.chan.recs.set c r).get d).st) = s.outline.st.set c r.st :=
    PerChannel.eq_of_get fun d => by
      simp only [State.outline, PerChannel.get_ofFn, PerChannel.get_set]
      split <;> rfl
  have next := Outline.Next.channel (o := s.outline) c r.st
  rw [← states] at next
  simpa only [State.outline, PerChannel.get_set_self] using next

theorem next_nearer (k : Span) (d : Nat) (s : State) : s.outline.Next (reduceDistances k d s).outline := by
  have shape : (reduceDistances k d s).trk.shape = s.trk.shape.withDists k ((s.trk.shape.dists.get k).map (· - (d : Int))) := by
    rw [Tracking.shape_dists]
    simp only [reduceDistances, setTrk_trk, Tracking.shape, TrackShape.withDists, TrackShape.mk.injEq, and_true, true_and]
    exact PerSpan.eq_of_get fun j => by
      simp only [PerSpan.get_ofFn, PerSpan.get_set]
      split <;> simp [Function.comp_def]
  have outline : (reduceDistances k d s).outline =
      s.outline.withShape (s.trk.shape.withDists k ((s.trk.shape.dists.get k).map (· - (d : Int)))) := by
    rw [← shape]
    rfl
  rw [outline]
  exact .nearer k d

theorem outline_popFront {k : Span} {q : Queued} {rest : List Queued} (queue : s.trk.queues.get k = q :: rest) :
    (popFront k s).outline = s.outline.withShape (s.trk.shape.withDists k (rest.map Queued.dist)) := by
  rw [← shape_popFront queue]
  rfl

theorem next_front {k : Span} {q : Queued} {rest : List Queued} {past : Int} (byLength : Bool)
    (queue : s.trk.queues.get k = q :: rest) (notShort : 0 ≤ past) :
    s.outline.Next (arrive k q.seg past byLength (popFront k s)).outline := by
  have dists : s.outline.shape.dists.get k = q.dist :: rest.map Queued.dist := by
    show s.trk.shape.dists.get k = _
    rw [Tracking.shape_dists, queue]
    rfl
  have exits : s.outline.Next (arriveAtExit q.seg (popFront k s)).outline := by
    obtain ⟨kind, keys, fewer, outline⟩ := outline_arriveAtExit q.seg (popFront k s)
    rw [outline, outline_popFront queue, shape_popFront queue]
    exact .exits dists fewer
  unfold arrive
  split
  · rename_i j downstream
    rw [outline_arriveAtStand, outline_popFront queue, shape_enterSpan, shape_popFront queue]
    exact .enters dists downstream notShort
  · exact exits
  · exact exits

theorem next_body (room : 4 < s.trk.free) : s.outline.Next (birth .body s).outline := by
  by_cases coils : s.outline.keys = []
  · rw [birth_of_none _ coils]
    exact .same
  · rw [outline_birth _ coils]
    refine .born ?_
    show s.trk.shape.used ≤ 59
    rw [TrackShape.used_eq]
    simp only [Tracking.free, Config.poolSize] at room
    omega

theorem outline_admitCoil (s : State) : (admitCoil s).outline = s.outline.withCoil := by
  simp [State.outline, Outline.withCoil, admitCoil, newCoil]

/-- R29: a rising in EMPTY admits a coil where there is room, and is rejected otherwise. -/
theorem turn_stripRises (s : State) : s.outline.Turn (stripRises s).outline := by
  unfold stripRises
  split
  · exact .none
  · rename_i empty
    have empty : s.outline.shape.entry = .empty := Decidable.of_not_not empty
    split
    · rw [outline_edge]
      exact .rejected empty
    · rename_i room
      obtain ⟨table, free⟩ := not_or.mp room
      have admitted := outline_admitCoil s
      have coils : (admitCoil s).outline.keys ≠ [] := by
        rw [admitted]
        simp [Outline.withCoil]
      have born := outline_birth .head coils
      have trk : (birth .head (admitCoil s)).trk.shape = s.trk.shape.bear := congrArg Outline.shape born
      have turned : (setTrk { (birth .head (admitCoil s)).trk with entry := .admitted } (birth .head (admitCoil s))).outline =
          s.outline.withCoil.withShape { s.outline.shape.bear with entry := .admitted } := by
        show Outline.withShape (birth .head (admitCoil s)).outline
          { (birth .head (admitCoil s)).trk.shape with entry := .admitted } = _
        rw [born, trk, admitted]
        rfl
      rw [turned]
      refine .admitted empty ?_ ?_
      · show (s.sched.coils.map Coil.key).length < 4
        simp only [Config.coilTableSize] at table
        rw [List.length_map]
        omega
      · show s.trk.shape.used ≤ 62
        rw [TrackShape.used_eq]
        simp only [Tracking.free, Config.poolSize] at free
        omega

/-- R32: a falling ends the entry; in ADMITTED it bears the TAIL. -/
theorem turn_stripFalls (s : State) : s.outline.Turn (stripFalls s).outline := by
  unfold stripFalls
  split
  · exact .none
  · exact .emptied
  · rename_i entry
    dsimp only
    by_cases coils : s.outline.keys = []
    · rw [birth_of_none _ coils]
      exact .emptied
    · have born := outline_birth .tail coils
      have trk : (birth .tail s).trk.shape = s.trk.shape.bear := congrArg Outline.shape born
      have turned : (setTrk { (birth .tail s).trk with entry := .empty } (birth .tail s)).outline =
          s.outline.withShape { s.outline.shape.bear with entry := .empty } := by
        show Outline.withShape (birth .tail s).outline { (birth .tail s).trk.shape with entry := .empty } = _
        rw [born, trk]
        rfl
      rw [turned]
      exact .fallen entry

/-- A turn of the entry does not depend on the debounced state. -/
theorem turn_withStrip {o u : Outline} {b : Bool} (turn : Outline.Turn { o with shape := { o.shape with strip := b } } u) :
    ∃ v, o.Turn v ∧ { u with inputs := { u.inputs with strip := b } } = v.withStrip b := by
  cases turn with
  | none => exact ⟨_, .none, rfl⟩
  | rejected empty => exact ⟨_, .rejected empty, rfl⟩
  | admitted empty table pool => exact ⟨_, .admitted empty table pool, rfl⟩
  | emptied => exact ⟨_, .emptied, rfl⟩
  | fallen entry => exact ⟨_, .fallen entry, rfl⟩

theorem next_stripDebounced (s : State) : s.outline.Next (stripDebounced s).outline := by
  unfold stripDebounced
  dsimp only
  have taken : (setTrk { s.trk with strip := s.pins.strip, stripTimer := none } s).outline =
      { s.outline with shape := { s.outline.shape with strip := s.pins.strip } } := rfl
  have told (b : Bool) (u : State) : (tripStrip b u).outline = { u.outline with inputs := { u.outline.inputs with strip := b } } :=
    outline_inputs _ u
  split
  · exact .same
  · split
    · rename_i same
      refine next_of_same ?_
      rw [taken, same]
      rfl
    · rw [told]
      generalize setTrk _ s = u at *
      have turn : u.outline.Turn (if s.pins.strip then stripRises u else stripFalls u).outline := by
        split
        · exact turn_stripRises u
        · exact turn_stripFalls u
      rw [taken] at turn
      obtain ⟨v, turn, same⟩ := turn_withStrip turn
      rw [same]
      exact .turned _ turn

theorem next_storeTracking (k : Span) (f : TrackingFields) (unused : s.trk.used = 0) :
    s.outline.Next (storeTracking k f s).outline := by
  refine .resized k (clampNat 1000 12000 f.length.toNat) ?_
  show s.trk.shape.used = 0
  rw [TrackShape.used_eq, unused]

theorem outline_deriveAll (l : List Stand) (s : State) : (l.foldl (fun u k => deriveAgc k u) s).outline = s.outline := by
  induction l generalizing s with
  | nil => rfl
  | cons k l ih => rw [List.foldl_cons, ih, outline_deriveAgc]

theorem outline_evalAttn (s : State) : (evalAttn s).outline = s.outline := rfl

theorem next_restart (s : State) : s.outline.Next (restartPart s).outline := by
  have checked : (Source.all.foldl latchCheck (restartBlocks s)).outline = (restartCleared s).outline := by
    rw [outline_of_calm (calm_foldl (fun u x => calm_latchCheck u x) Source.all _), restartBlocks_eq, outline_deriveAll]
  have cleared : s.outline.Next (restartCleared s).outline := by
    have empty : (PerSpan.ofFn fun k => (((.fill [] : PerSpan (List Queued)).get k).map Queued.dist)) = .fill [] :=
      PerSpan.eq_of_get fun k => by simp
    have next := Outline.Next.restarted (o := s.outline) (.ofFn fun c => ((restartChannels s.chan).recs.get c).st)
    rw [← empty] at next
    exact next
  rw [restartPart, outline_evalAttn, checked]
  exact cleared

theorem outline_leaveReset (cause : ResetCause) (s : State) : (leaveReset cause s).outline = State.reset.outline := by
  rw [leaveReset_eq cause]
  rfl

theorem outline_millisecond (s : State) : (millisecond s).outline = s.outline := by
  unfold millisecond
  split
  · rfl
  · have states : (PerChannel.ofFn fun c => ((.ofFn fun d => { s.chan.recs.get d with
        staleLeft := lower (s.chan.recs.get d).staleLeft } : PerChannel ChannelRec).get c).st) = s.outline.st :=
      PerChannel.eq_of_get fun c => by simp [State.outline]
    simp only [State.outline, states]
    rfl

theorem outline_endService (x : Source) (s : State) : (endService x s).outline = s.outline := by
  unfold endService
  dsimp only
  split
  · rfl
  · rw [outline_evalAttn, outline_of_calm (calm_releaseAction _ x)]
    rfl

theorem outline_setRef (k : Stand) (v : Int) (s : State) : (setRef k v s).outline = s.outline := by
  rw [setRef_eq]
  rfl

theorem outline_update (k : Stand) (s : State) : (update k s).outline = s.outline := by
  unfold update
  dsimp only
  split
  · split
    · exact outline_setRef k _ _
    · exact outline_setRef k _ _
  · rfl
  · rfl
  · rfl

theorem outline_changeMode (k : Stand) (mode : AgcMode) (s : State) : (changeMode k mode s).outline = s.outline := by
  unfold changeMode
  dsimp only
  split
  · rfl
  · exact outline_clearReference k s

theorem outline_cancelPending (k : Stand) (m : Move) (s : State) : (cancelPending k m s).outline = s.outline := by
  unfold cancelPending
  cases m.tag <;> rfl
end

/-! ### From an event to a step -/

/-- `Q` is kept by what an event can do to the outline, and met out of a reset. -/
structure Outlined (Q : Outline → Prop) : Prop where
  next : ∀ {o o'}, Outline.Next o o' → Q o → Q o'
  reset : Q State.reset.outline

section
variable {Q : Outline → Prop} (w : Outlined Q)
include w

theorem Outlined.elementary : Elementary fun s => Q s.outline where
  latch {s x} _ _ h := w.next (next_of_same (outline_of_calm (calm_latch s x))) h
  again {s x} _ h := w.next (next_of_same (outline_of_calm (calm_setSource s x rfl))) h
  live {s x} b _ h := w.next (next_of_same (outline_of_calm (calm_setLive s x b))) h
  link _ h := h
  attn h := h
  ceiling {s c} _ _ h := by
    have same : (Source.all.foldl actIfEligible { s with trips := { s.trips with ceiling := c } }).outline = s.outline :=
      outline_of_calm (s := { s with trips := { s.trips with ceiling := c } })
        (calm_foldl (fun u x => calm_actIfEligible u x) Source.all _)
    rw [outline_evalAttn, same]
    exact h
  take _ h := h
  ends {s x} _ h := w.next (next_of_same (outline_endService x s)) h
  clearStop _ h := h
  restart _ h := w.next (next_restart _) h
  record {s c r} _ st h := by
    have same : (setChannel c r s).outline = s.outline := by
      have states : (PerChannel.ofFn fun d => ((s.chan.recs.set c r).get d).st) = s.outline.st :=
        PerChannel.eq_of_get fun d => by
          simp only [State.outline, PerChannel.get_ofFn, PerChannel.get_set]
          split
          · subst d
            exact st
          · rfl
      simp only [State.outline, setChannel_chan, states]
      rfl
    exact w.next (next_of_same same) h
  feedback {s} k x h := w.next (next_of_same (outline_of_calm (calm_takeFeedback k s _))) h
  finish {s k a} st _ h := w.next (next_of_same (outline_of_calm (s := s) (by simp))) h
  posErr _ _ h := h
  update {s} k h := w.next (next_of_same (outline_update k s)) h
  hold {s} k h := w.next (next_of_same (outline_of_calm (calm_holdActive k s))) h
  resume {s} k h := w.next (next_of_same (outline_of_calm (calm_resumeActive k s))) h
  cancel {s k x m} _ _ _ h := w.next (next_of_same (outline_cancelPending k m s)) h
  move {s k x target} rate _ _ _ _ h := w.next (next_of_same (outline_of_calm (s := s) (by simp))) h
  settings _ _ h := h
  flags _ _ _ h := h
  mode {s} k mode h := w.next (next_of_same (outline_changeMode k mode s)) h

theorem Outlined.walk : Walk fun s => Q s.outline where
  toElementary := w.elementary
  besides {s t} same h := by
    have outline : t.outline = s.outline := by
      have e := congrArg State.outline same
      exact e
    exact w.next (next_of_same outline) h
  channel b o _ _ h := w.next (next_channel b o _) h
  track same h := w.next (next_of_same (outline_setTrk same)) h
  nearer k d h := w.next (next_nearer k d _) h
  front byLength queue notShort h := w.next (next_front byLength queue notShort) h
  body _ room h := w.next (next_body room) h
  debounced h := w.next (next_stripDebounced _) h
  tracking k f unused h := w.next (next_storeTracking k f unused) h
  load {s} d room h := by
    have loaded : (setSched { s.sched with queue := s.sched.queue ++ [d] } s).outline =
        { s.outline with schedules := s.outline.schedules + 1 } := by
      simp [State.outline]
    rw [loaded]
    exact w.next (.loaded room) h
  flush h := w.next .flushed h

/-- Every step keeps what the outline's changes keep. -/
theorem Outlined.steps : Steps fun s => Q s.outline where
  toWalk := w.walk
  reply _ _ h := h
  source {s x} r mode priority action masked _ _ h := by
    have same := outline_of_calm (calm_latchCheck
      (addReply r (setSource x (storedSource (s.trips.src.get x) mode priority action masked) s)) x)
    exact w.next (next_of_same (o := s.outline) same) h
  lines _ _ h := h
  queue _ h := h
  reset cause b _ := by
    rw [outline_leaveReset]
    exact w.reset
  held h := h
  time {s} _ h := w.next (next_of_same (outline_millisecond s)) h
end

end Sys2Proof.Machine
end

section
/-! ATTN, the trip controller's inputs with the conditions derived from them, the stores' capacities, the coil table's order and the span
queues: each is kept by every step. -/
namespace Sys2Proof.Machine
open Sys2Proof.Safety

/-! ### ATTN (R118) -/

theorem selected_of {s t : State} (src : ∀ x, (t.trips.src.get x).st = (s.trips.src.get x).st ∧
    (t.trips.src.get x).priority = (s.trips.src.get x).priority) (ceiling : t.trips.ceiling = s.trips.ceiling)
    (stack : t.trips.stack = s.trips.stack) : selected t = selected s := by
  have st (x : Source) := (src x).1
  have priority (x : Source) := (src x).2
  have urgent : moreUrgent t = moreUrgent s := by
    funext b x
    simp only [moreUrgent, priority]
  have fits : qualifies t = qualifies s := by
    funext x
    simp only [qualifies, priority, stack]
  simp only [selected, mostUrgent, urgent, fits, st, State.eligible, priority, ceiling]

theorem selected_of_acts {s t : State} (same : t.acts = s.acts) : selected t = selected s := by
  have core (x : Source) : (t.trips.src.get x).core = (s.trips.src.get x).core := by
    rw [← acts_src, ← acts_src, same]
  have parts (x : Source) : (t.trips.src.get x).st = (s.trips.src.get x).st ∧
      (t.trips.src.get x).priority = (s.trips.src.get x).priority :=
    ⟨by have e := congrArg SourceRec.st (core x); exact e, by have e := congrArg SourceRec.priority (core x); exact e⟩
  exact selected_of parts (congrArg Acts.ceiling same) (congrArg Acts.stack same)

theorem attnOk_evalAttn (s : State) : AttnOk (evalAttn s) := fun _ => rfl

theorem attnOk_of_selected {s t : State} (h : AttnOk s) (same : selected t = selected s) (attn : t.link.attn = s.link.attn)
    (reset : t.pins.reset = s.pins.reset) : AttnOk t := by
  intro free
  rw [attn, same]
  exact h (reset.symm.trans free)

theorem attnOk_congr {s t : State} (h : AttnOk s) (acts : t.acts = s.acts) (attn : t.link.attn = s.link.attn)
    (reset : t.pins.reset = s.pins.reset) : AttnOk t := attnOk_of_selected h (selected_of_acts acts) attn reset

theorem attnOk_gears : Gears AttnOk where
  gearless same h := attnOk_congr h (acts_of_gearless same) (by have e := congrArg (fun u => u.link.attn) same; exact e)
    (by have e := congrArg (fun u => u.pins.reset) same; exact e)
  link quiet h := attnOk_congr h (by rfl) quiet.attn (by rfl)
  live b _ h := attnOk_congr h (acts_setLive _ b _) (by rfl) (by rfl)

theorem attnOk_again {s : State} (x : Source) (h : AttnOk s) :
    AttnOk (setSource x { s.trips.src.get x with rep := true } s) := by
  have same : selected (setSource x { s.trips.src.get x with rep := true } s) = selected s :=
    selected_of (fun y => by
      simp only [setSource_trips, PerSource.get_set]
      split
      · subst y
        exact ⟨rfl, rfl⟩
      · exact ⟨rfl, rfl⟩) rfl rfl
  intro free
  rw [same]
  exact h free

/-- R118: whatever changes which source TAKE_TRIP would select ends by evaluating ATTN. -/
theorem attnOk_geared : Geared AttnOk where
  toGears := attnOk_gears
  attn _ := attnOk_evalAttn _
  latch _ _ _ := attnOk_evalAttn _
  again _ h := attnOk_again _ h
  ceiling _ _ _ := attnOk_evalAttn _
  take _ _ := attnOk_evalAttn _
  ends _ _ := attnOk_evalAttn _
  clearStop _ h := attnOk_of_selected h (selected_congr rfl) rfl rfl
  restart _ _ := attnOk_evalAttn _
  record _ h := attnOk_congr h (by rfl) (by rfl) (by rfl)
  inputs i h :=
    Edged.derivedConditions { latch := fun _ _ _ => attnOk_evalAttn _, again := fun _ h => attnOk_again _ h, live := attnOk_gears.live }
      (fun x b h => attnOk_congr h (acts_setLive x b _) (by rfl) (by rfl)) (attnOk_congr h (by rfl) (by rfl) (by rfl))

theorem attnOk_leaveReset (cause : ResetCause) (s : State) : AttnOk (leaveReset cause s) := by
  have quiet : selected (blocksAtReset cause s) = none :=
    (selected_congr (s := blocksAtReset cause s) (t := State.reset) rfl).trans (by decide)
  intro free
  have held : s.pins.reset = false := by
    rw [leaveReset_eq cause] at free
    exact free
  unfold leaveReset
  dsimp only
  rw [if_neg (by simp [blocksAtReset, held]), selected_congr (report_trips _ _), quiet]
  show (Link.pump (Link.offer _ _)).attn = false
  rw [(quietLink_report _ _).attn]
  rfl

theorem attnOk_steps : Steps AttnOk where
  toWalk := attnOk_geared.inner.walk
  reply r _ h := attnOk_congr h (by rfl) (by
    show (Link.pump _).attn = _
    rw [Link.pump_eq]) (by rfl)
  source _ _ _ _ _ _ _ _ := attnOk_evalAttn _
  lines _ _ h := attnOk_congr h (by rfl) rfl rfl
  queue _ h := attnOk_congr h (by rfl) rfl rfl
  reset cause b _ := attnOk_leaveReset cause _
  held _ free := by cases free
  time {s} free h := by
    unfold millisecond
    rw [if_neg (by simp [free])]
    exact attnOk_congr h (by rfl) rfl rfl

/-! ### The trip controller's inputs (R1, R110) -/

/-- A channel that is not enabled is OFF, and sources 13 to 15 have the conditions derived. -/
structure InputsDerived (s : State) : Prop where
  off : ∀ c, (s.chan.recs.get c).enabled = false → (s.chan.recs.get c).st = .off
  derived : Derived s.trips

theorem inputsDerived_congr {s t : State} (h : InputsDerived s) (recs : t.chan.recs = s.chan.recs)
    (inputs : t.trips.inputs = s.trips.inputs) (live : derivedLive t.trips.src = derivedLive s.trips.src) : InputsDerived t := by
  have same {x : Source} (derived : Source.isDerived x = true) := live_of_derivedLive live (x := x) derived
  refine ⟨by rw [recs]; exact h.off, ?_, ?_, ?_⟩
  · rw [exitGaugeCond_congr inputs, ← h.derived.exitGauge]
    exact same (x := .exitGauge) rfl
  · rw [entryGaugeCond_congr inputs, ← h.derived.entryGauge]
    exact same (x := .entryGauge) rfl
  · rw [channelFaultCond_congr inputs, ← h.derived.channelFault]
    exact same (x := .channelFault) rfl

/-- R19, R127: a restart leaves no channel STALE or in FAULT, no record under point 7, and the derived conditions false. -/
theorem inputsDerived_restartCleared {s : State} (h : InputsDerived s) : InputsDerived (restartCleared s) := by
  have restarted (c : Channel) : (restartChannels s.chan).recs.get c =
      if (s.chan.recs.get c).enabled then (s.chan.recs.get c).cleared else s.chan.recs.get c := PerChannel.get_ofFn _ c
  have st (c : Channel) : ((restartChannels s.chan).recs.get c).st = .settling ∨ ((restartChannels s.chan).recs.get c).st = .off := by
    rw [restarted]
    split
    · rename_i enabled
      simp [ChannelRec.cleared, enabled]
    · rename_i disabled
      exact .inr (h.off c (by simpa using disabled))
  have chan (c : Channel) : (restartCleared s).trips.inputs.chan.get c = ((restartChannels s.chan).recs.get c).st :=
    PerChannel.get_ofFn _ c
  have sound (c : Channel) : (restartCleared s).trips.inputs.chan.get c ≠ .stale ∧
      (restartCleared s).trips.inputs.chan.get c ≠ .fault := by
    rw [chan]
    rcases st c with e | e <;> simp [e]
  have live (x : Source) (derived : Source.isDerived x = true) : ((restartCleared s).trips.src.get x).live = false := by
    have own : (restartCleared s).trips.src.get x = restartSource s.ilk x (s.trips.src.get x) := PerSource.get_ofFn _ x
    rw [own]
    cases x <;> first | rfl | cases derived
  refine ⟨fun c => ?_, ?_, ?_, ?_⟩
  · show ((restartChannels s.chan).recs.get c).enabled = false → ((restartChannels s.chan).recs.get c).st = .off
    rw [restarted]
    split
    · rename_i enabled
      intro disabled
      exact absurd (disabled.symm.trans enabled) (by simp)
    · exact h.off c
  · refine (live .exitGauge rfl).trans ?_
    simp only [Trips.exitGaugeCond, restartCleared, restartTrips]
    simp
  · refine (live .entryGauge rfl).trans ?_
    have own := sound .entry
    rw [PerChannel.get_entry] at own
    simp [Trips.entryGaugeCond, own]
  · refine (live .channelFault rfl).trans ?_
    have force (k : Stand) := (sound (.force k)).2
    have position (k : Stand) := (sound (.position k)).2
    simp only [PerChannel.get_force, PerChannel.get_position] at force position
    refine Eq.symm (List.any_eq_false.mpr fun c hc => ?_)
    rw [PerStand.toList_eq_map_get, PerStand.toList_eq_map_get, List.mem_append, List.mem_map, List.mem_map] at hc
    rcases hc with ⟨k, -, rfl⟩ | ⟨k, -, rfl⟩
    · simpa using force k
    · simpa using position k

theorem inputsDerived_tripless : Tripless InputsDerived where
  tripless same h := inputsDerived_congr h (by have e := congrArg (fun u => u.chan.recs) same; exact e)
    (by have e := congrArg (fun u => u.trips.inputs) same; exact e)
    (by have e := congrArg (fun u => u.trips.src) same; exact e)
  link _ _ h := inputsDerived_congr h (by rfl) (by rfl) (by rfl)

theorem inputsDerived_handed : Handed InputsDerived where
  toTripless := inputsDerived_tripless
  record {s c r} keeps h := by
    refine ⟨fun d => ?_, h.derived⟩
    rw [setChannel_chan]
    dsimp only
    rw [PerChannel.get_set]
    split
    · exact keeps (h.off c)
    · exact h.off d
  inputs {s} i h := by
    refine ⟨?_, derived_derivedConditions _⟩
    rw [chan_of_calm (calm_derivedConditions _)]
    exact h.off
  blocks h := inputsDerived_tripless.gears.restartBlocks (inputsDerived_restartCleared h)

theorem inputsDerived_steps : Steps InputsDerived where
  toWalk := inputsDerived_handed.walk
  reply _ _ h := inputsDerived_congr h (by rfl) (by rfl) (by rfl)
  source {s x} r mode priority action masked _ _ h := by
    have live : (storedSource (s.trips.src.get x) mode priority action masked).live = (s.trips.src.get x).live := by
      cases action <;> rfl
    have stored := inputsDerived_tripless.setSource (fun _ => live) h
    exact inputsDerived_tripless.evalAttn (inputsDerived_tripless.latchCheck x
      (inputsDerived_congr stored (by rfl) (by rfl) (by rfl)))
  lines _ _ h := ⟨h.off, h.derived⟩
  queue _ h := ⟨h.off, h.derived⟩
  reset cause b _ := by
    rw [leaveReset_eq cause]
    refine ⟨fun c => ?_, ⟨rfl, rfl, rfl⟩⟩
    cases c with
    | force k => cases k <;> exact fun _ => rfl
    | position k => cases k <;> exact fun _ => rfl
    | entry | exit => exact fun _ => rfl
  held h := ⟨h.off, h.derived⟩
  time {s} free h := by
    unfold millisecond
    rw [if_neg (by simp [free])]
    refine ⟨fun c => ?_, h.derived⟩
    simpa using h.off c

/-- The inputs kept are what the blocks hold. -/
structure InputsKept (o : Outline) : Prop where
  chan : ∀ c, o.inputs.chan.get c = o.st.get c
  exitKind : o.inputs.exitKind = o.shape.exitKind
  strip : o.inputs.strip = o.shape.strip

theorem inputsKept_outlined : Outlined InputsKept where
  next {o o'} next h := by
    cases next with
    | channel c st =>
      refine ⟨fun d => ?_, h.exitKind, h.strip⟩
      simp only [PerChannel.get_set]
      split
      · rfl
      · exact h.chan d
    | exits _ _ => exact ⟨h.chan, rfl, h.strip⟩
    | turned b turn => cases turn <;> exact ⟨h.chan, h.exitKind, rfl⟩
    | restarted st => exact ⟨fun _ => rfl, rfl, rfl⟩
    | _ => exact ⟨h.chan, h.exitKind, h.strip⟩
  reset := ⟨fun c => by
    cases c with
    | force k => cases k <;> rfl
    | position k => cases k <;> rfl
    | entry | exit => rfl, rfl, rfl⟩

theorem inputsOk_iff (s : State) : InputsOk s ↔ InputsDerived s ∧ InputsKept s.outline := by
  have st (c : Channel) : s.outline.st.get c = (s.chan.recs.get c).st := PerChannel.get_ofFn _ c
  constructor
  · rintro ⟨off, chan, exitKind, strip, exitGauge, entryGauge, channelFault⟩
    exact ⟨⟨off, exitGauge, entryGauge, channelFault⟩, fun c => (chan c).trans (st c).symm, exitKind, strip⟩
  · rintro ⟨⟨off, exitGauge, entryGauge, channelFault⟩, chan, exitKind, strip⟩
    exact ⟨off, fun c => (chan c).trans (st c), exitKind, strip, exitGauge, entryGauge, channelFault⟩

/-! ### Capacities (R24, R25, R51, R53) -/

/-- The room of the pool, the schedule queue and the coil table. -/
structure StoresRoom (o : Outline) : Prop where
  schedules : o.schedules ≤ 4
  coils : o.keys.length ≤ 4
  pool : o.shape.used ≤ 64
  tail : o.shape.entry = .admitted → o.shape.used ≤ 63

theorem used_withDists (t : TrackShape) (k : Span) (l : List Int) :
    (t.withDists k l).used + (t.dists.get k).length = t.used + l.length := by
  have sum (u : PerStand (List Int)) (j : Stand) :
      ((u.set j l).toList.map List.length).sum + (u.get j).length = (u.toList.map List.length).sum + l.length := by
    cases j <;> simp [PerStand.set, PerStand.get, PerStand.toList] <;> omega
  cases k with
  | entry =>
    simp [TrackShape.used, TrackShape.withDists, PerSpan.set, PerSpan.toList]
    omega
  | after j =>
    have := sum t.dists.after j
    simp only [TrackShape.used, TrackShape.withDists, PerSpan.set, PerSpan.get, PerSpan.toList, List.map_append, List.sum_append]
    omega

theorem used_bear (t : TrackShape) : t.bear.used = t.used + 1 := by
  have h := used_withDists t .entry (t.dists.entry ++ [(t.spanLen.entry : Int)])
  simp only [List.length_append, List.length_singleton, PerSpan.get_entry] at h
  show (t.withDists _ _).used = _
  omega

theorem used_popped {t : TrackShape} {k : Span} {d : Int} {rest : List Int} (queue : t.dists.get k = d :: rest) :
    (t.withDists k rest).used + 1 = t.used := by
  have h := used_withDists t k rest
  rw [queue, List.length_cons] at h
  omega

theorem used_pushed (t : TrackShape) (k : Span) (d : Int) : (t.withDists k (t.dists.get k ++ [d])).used = t.used + 1 := by
  have h := used_withDists t k (t.dists.get k ++ [d])
  rw [List.length_append, List.length_singleton] at h
  omega

theorem used_withExit (t : TrackShape) (kind : Option Kind) : ({ t with exitKind := kind } : TrackShape).used ≤ t.used + 1 := by
  have one : kind.toList.length ≤ 1 := by cases kind <;> simp
  simp only [TrackShape.used]
  omega

theorem storesRoom_outlined : Outlined StoresRoom where
  next {o o'} next h := by
    have full := h.pool
    have spare := h.tail
    cases next with
    | same => exact h
    | channel c st => exact ⟨h.schedules, h.coils, h.pool, h.tail⟩
    | nearer k d =>
      have same : (o.shape.withDists k ((o.shape.dists.get k).map (· - (d : Int)))).used = o.shape.used := by
        have := used_withDists o.shape k ((o.shape.dists.get k).map (· - (d : Int)))
        rw [List.length_map] at this
        omega
      exact ⟨h.schedules, h.coils, same ▸ full, fun entry => same ▸ spare entry⟩
    | @enters k j d rest past queue _ _ =>
      have popped := used_popped queue
      have same := used_pushed (o.shape.withDists k rest) (.after j) ((o.shape.withDists k rest).entering j past)
      rw [popped] at same
      exact ⟨h.schedules, h.coils, same ▸ full, fun entry => same ▸ spare entry⟩
    | @exits k d rest kind keys queue fewer =>
      have popped := used_popped queue
      have exit := used_withExit (o.shape.withDists k rest) kind
      rw [popped] at exit
      exact ⟨h.schedules, Nat.le_trans fewer.length_le h.coils, Nat.le_trans exit full, fun entry => Nat.le_trans exit (spare entry)⟩
    | born room =>
      have born := used_bear o.shape
      have fits : o.shape.bear.used ≤ 60 := by omega
      exact ⟨h.schedules, h.coils, Nat.le_trans fits (by omega), fun _ => Nat.le_trans fits (by omega)⟩
    | turned b turn =>
      have born := used_bear o.shape
      cases turn with
      | none => exact ⟨h.schedules, h.coils, h.pool, h.tail⟩
      | rejected _ => exact ⟨h.schedules, h.coils, h.pool, fun e => by cases e⟩
      | admitted _ table pool =>
        have fits : o.shape.bear.used ≤ 63 := by omega
        refine ⟨Nat.le_trans (Nat.sub_le _ _) h.schedules, ?_, Nat.le_trans fits (by omega), fun _ => fits⟩
        show (o.keys ++ [o.nextKey]).length ≤ 4
        rw [List.length_append, List.length_singleton]
        omega
      | emptied => exact ⟨h.schedules, h.coils, h.pool, fun e => by cases e⟩
      | fallen entry =>
        have fits : o.shape.bear.used ≤ 64 := by
          have := spare entry
          omega
        exact ⟨h.schedules, h.coils, fits, fun e => by cases e⟩
    | resized k n unused => exact ⟨h.schedules, h.coils, h.pool, h.tail⟩
    | loaded room => exact ⟨room, h.coils, h.pool, h.tail⟩
    | flushed => exact ⟨Nat.zero_le _, h.coils, h.pool, h.tail⟩
    | restarted st => exact ⟨h.schedules, Nat.zero_le _, Nat.zero_le _, fun _ => Nat.zero_le _⟩
  reset := ⟨by decide, by decide, by decide, by decide⟩

theorem linkRoom_steps : Steps (LinkRoom 8) where
  toWalk := (linkRoom_handed 8).walk
  reply {s} r room h := by
    obtain ⟨reports, replies⟩ := Link.pump_length { s.link with replies := s.link.replies ++ [r] }
    refine ⟨Nat.le_trans reports h.reports, Nat.le_trans replies ?_⟩
    show (s.link.replies ++ [r]).length ≤ 8
    rw [List.length_append, List.length_singleton]
    omega
  source {s x} r mode priority action masked room _ h := by
    obtain ⟨reports, replies⟩ := Link.pump_length { s.link with replies := s.link.replies ++ [r] }
    refine (linkRoom_tripless 8).evalAttn
      ((linkRoom_tripless 8).latchCheck x ⟨Nat.le_trans reports h.reports, Nat.le_trans replies ?_⟩)
    show (s.link.replies ++ [r]).length ≤ 8
    rw [List.length_append, List.length_singleton]
    omega
  lines _ _ h := ⟨h.reports, h.replies⟩
  queue _ h := ⟨h.reports, h.replies⟩
  reset {s} cause b _ := by
    have offered : ∀ u : State, u.link.reports = [] → u.link.replies = [] →
        (u.link.offer (.started cause)).reports.length ≤ 32 ∧ (u.link.offer (.started cause)).replies.length ≤ 8 := by
      intro u reports replies
      rw [Link.offer_joins (by simp [reports]), reports, replies]
      simp
    have blocks : ∀ u : State, (blocksAtReset cause u).link.reports = [] ∧ (blocksAtReset cause u).link.replies = [] :=
      fun _ => ⟨rfl, rfl⟩
    unfold leaveReset
    dsimp only
    obtain ⟨reports, replies⟩ := blocks { s with pins := { s.pins with reset := b } }
    obtain ⟨fewReports, fewReplies⟩ := offered _ reports replies
    split
    · exact ⟨fewReports, fewReplies⟩
    · obtain ⟨pumpedReports, pumpedReplies⟩ := Link.pump_length (Link.offer
        (blocksAtReset cause { s with pins := { s.pins with reset := b } }).link (.started cause))
      exact ⟨Nat.le_trans pumpedReports fewReports, Nat.le_trans pumpedReplies fewReplies⟩
  held h := ⟨h.reports, h.replies⟩
  time {s} free h := by
    unfold millisecond
    rw [if_neg (by simp [free])]
    exact ⟨h.reports, h.replies⟩

theorem roomOk_iff (s : State) : RoomOk s ↔ LinkRoom 8 s ∧ StoresRoom s.outline := by
  have keys : s.outline.keys.length = s.sched.coils.length := List.length_map _
  have used : s.outline.shape.used = s.trk.used := TrackShape.used_eq s.trk
  constructor
  · rintro ⟨reports, replies, schedules, coils, pool, tail⟩
    exact ⟨⟨reports, replies⟩, schedules, keys ▸ coils, used ▸ pool, fun entry => used ▸ tail entry⟩
  · rintro ⟨⟨reports, replies⟩, schedules, coils, pool, tail⟩
    exact ⟨reports, replies, schedules, keys ▸ coils, used ▸ pool, fun entry => used ▸ tail entry⟩

/-! ### The coil table's order (R53) -/

/-- The keys rise, and the next one is above them. -/
structure KeysRise (o : Outline) : Prop where
  order : o.keys.Pairwise (· < ·)
  given : ∀ n ∈ o.keys, n < o.nextKey

theorem keysRise_outlined : Outlined KeysRise where
  next {o o'} next h := by
    cases next with
    | exits _ fewer => exact ⟨h.order.sublist fewer, fun n hn => h.given n (fewer.subset hn)⟩
    | turned b turn =>
      cases turn with
      | admitted _ _ _ =>
        refine ⟨?_, fun n hn => ?_⟩
        · exact List.pairwise_append.mpr ⟨h.order, List.pairwise_singleton _ _, fun n hn m hm => by
            rw [List.mem_singleton.mp hm]
            exact h.given n hn⟩
        · rcases List.mem_append.mp hn with old | new
          · exact Nat.lt_succ_of_lt (h.given n old)
          · rw [List.mem_singleton.mp new]
            exact Nat.lt_succ_self _
      | _ => exact ⟨h.order, h.given⟩
    | restarted st => exact ⟨List.Pairwise.nil, fun _ none => by cases none⟩
    | _ => exact ⟨h.order, h.given⟩
  reset := ⟨List.Pairwise.nil, fun _ none => by cases none⟩

theorem coilsOk_iff (s : State) : CoilsOk s.sched ↔ KeysRise s.outline := by
  constructor
  · rintro ⟨order, given⟩
    exact ⟨List.pairwise_map.mpr order, fun n hn => by
      obtain ⟨c, hc, rfl⟩ := List.mem_map.mp hn
      exact given c hc⟩
  · rintro ⟨order, given⟩
    exact ⟨List.pairwise_map.mp order, fun c hc => given c.key (List.mem_map_of_mem hc)⟩

/-! ### Span queues (R26, R34) -/

/-- In every span the distances never decrease from front to back, and none is above the span's length. -/
structure DistsRise (o : Outline) : Prop where
  order : ∀ k, (o.shape.dists.get k).Pairwise (· ≤ ·)
  length : ∀ k, ∀ d ∈ o.shape.dists.get k, d ≤ (o.shape.spanLen.get k : Int)

theorem DistsRise.withDists {o : Outline} (h : DistsRise o) {k : Span} {l : List Int} (order : l.Pairwise (· ≤ ·))
    (length : ∀ d ∈ l, d ≤ (o.shape.spanLen.get k : Int)) : DistsRise (o.withShape (o.shape.withDists k l)) where
  order j := by
    show ((o.shape.dists.set k l).get j).Pairwise _
    rw [PerSpan.get_set]
    split
    · exact order
    · exact h.order j
  length j := by
    show ∀ d ∈ (o.shape.dists.set k l).get j, d ≤ _
    rw [PerSpan.get_set]
    split
    · subst j
      exact length
    · exact h.length j

/-- A record joins the back of a span with no less to go than the one ahead of it, and no more than the span. -/
theorem DistsRise.push {o : Outline} (h : DistsRise o) {k : Span} {d : Int} (behind : ∀ e ∈ o.shape.dists.get k, e ≤ d)
    (within : d ≤ (o.shape.spanLen.get k : Int)) : DistsRise (o.withShape (o.shape.withDists k (o.shape.dists.get k ++ [d]))) := by
  refine h.withDists (List.pairwise_append.mpr ⟨h.order k, List.pairwise_singleton _ _, fun e he f hf => ?_⟩) fun e he => ?_
  · rw [List.mem_singleton.mp hf]
    exact behind e he
  · rcases List.mem_append.mp he with old | new
    · exact h.length k e old
    · rw [List.mem_singleton.mp new]
      exact within

theorem DistsRise.pop {o : Outline} (h : DistsRise o) {k : Span} {d : Int} {rest : List Int}
    (queue : o.shape.dists.get k = d :: rest) : DistsRise (o.withShape (o.shape.withDists k rest)) := by
  have order := h.order k
  have length := h.length k
  rw [queue] at order length
  exact h.withDists order.of_cons fun e he => length e (List.mem_cons_of_mem d he)

theorem DistsRise.bear {o : Outline} (h : DistsRise o) : DistsRise (o.withShape o.shape.bear) :=
  h.push (k := .entry) (h.length .entry) (Int.le_refl _)

/-- R34: an arriving record enters its next span behind the records there, within the span's length. -/
theorem entering_bounds {o : Outline} (h : DistsRise o) (j : Stand) {past : Int} (notShort : 0 ≤ past) :
    (∀ e ∈ o.shape.dists.get (.after j), e ≤ o.shape.entering j past) ∧
      o.shape.entering j past ≤ (o.shape.spanLen.get (.after j) : Int) := by
  have own : max ((o.shape.spanLen.after.get j : Int) - past) 0 ≤ (o.shape.spanLen.after.get j : Int) := by omega
  have order := h.order (.after j)
  have length := h.length (.after j)
  unfold TrackShape.entering
  rcases List.eq_nil_or_concat (o.shape.dists.get (.after j)) with empty | ⟨ahead, last, queue⟩
  · rw [empty]
    exact ⟨(by intro e none; cases none), own⟩
  · rw [queue] at order length ⊢
    rw [List.concat_eq_append] at order length ⊢
    simp only [List.getLast?_append, List.getLast?_singleton, Option.some_or]
    refine ⟨fun e he => ?_, ?_⟩
    · rcases List.mem_append.mp he with before | atEnd
      · have := (List.pairwise_append.mp order).2.2 e before last (List.mem_singleton_self _)
        omega
      · rw [List.mem_singleton.mp atEnd]
        omega
    · have := length last (List.mem_append_right _ (List.mem_singleton_self _))
      rw [PerSpan.get_after] at this ⊢
      omega

theorem distsRise_outlined : Outlined DistsRise where
  next {o o'} next h := by
    cases next with
    | nearer k d =>
      refine h.withDists (List.pairwise_map.mpr ((h.order k).imp fun le => by omega)) fun e he => ?_
      obtain ⟨f, hf, rfl⟩ := List.mem_map.mp he
      have := h.length k f hf
      omega
    | enters queue _ notShort =>
      have popped := h.pop queue
      obtain ⟨behind, within⟩ := entering_bounds popped _ notShort
      exact popped.push behind within
    | exits queue _ => exact ⟨(h.pop queue).order, (h.pop queue).length⟩
    | born _ => exact h.bear
    | turned b turn =>
      cases turn with
      | admitted _ _ _ => exact ⟨h.bear.order, h.bear.length⟩
      | fallen _ => exact ⟨h.bear.order, h.bear.length⟩
      | _ => exact ⟨h.order, h.length⟩
    | resized k n unused =>
      have empty (j : Span) : o.shape.dists.get j = [] := by
        have lengths : (o.shape.dists.toList.map List.length).sum = 0 := by
          simp only [TrackShape.used] at unused
          omega
        cases j with
        | entry => simpa [PerSpan.toList, PerStand.toList] using And.left (a := o.shape.dists.entry = []) (by
            simpa [PerSpan.toList, PerStand.toList] using lengths)
        | after j =>
          simp [PerSpan.toList, PerStand.toList] at lengths
          cases j <;> simp [PerSpan.get, PerStand.get, lengths]
      refine ⟨h.order, fun j d hd => ?_⟩
      change d ∈ o.shape.dists.get j at hd
      rw [empty] at hd
      cases hd
    | restarted st =>
      refine ⟨fun k => ?_, fun k => ?_⟩
      · show ((PerSpan.fill []).get k).Pairwise _
        rw [PerSpan.get_fill]
        exact List.Pairwise.nil
      · show ∀ d ∈ (PerSpan.fill []).get k, _
        rw [PerSpan.get_fill]
        exact fun d none => by cases none
    | _ => exact ⟨h.order, h.length⟩
  reset := by
    have empty (k : Span) : State.reset.outline.shape.dists.get k = [] := by
      cases k with
      | entry => rfl
      | after k => cases k <;> rfl
    refine ⟨fun k => ?_, fun k => ?_⟩
    · rw [empty]
      exact List.Pairwise.nil
    · rw [empty]
      exact fun d none => by cases none

theorem queuesOk_iff (s : State) : QueuesOk s.trk ↔ DistsRise s.outline := by
  have dists (k : Span) : s.outline.shape.dists.get k = (s.trk.queues.get k).map Queued.dist := s.trk.shape_dists k
  constructor
  · rintro ⟨order, length⟩
    refine ⟨fun k => ?_, fun k d hd => ?_⟩
    · rw [dists]
      exact List.pairwise_map.mpr (order k)
    · rw [dists] at hd
      obtain ⟨q, hq, rfl⟩ := List.mem_map.mp hd
      exact length k q hq
  · rintro ⟨order, length⟩
    refine ⟨fun k => ?_, fun k q hq => ?_⟩
    · have := order k
      rw [dists] at this
      exact List.pairwise_map.mp this
    · exact length k q.dist (by
        rw [dists]
        exact List.mem_map_of_mem hq)

end Sys2Proof.Machine

namespace Sys2Proof
open Machine Safety

/-- Settles O58: the operations on stands keep the AGC states and the trim; what changes the selection ends by evaluating ATTN; the
conditions are derived wherever an input changes, and the inputs follow the blocks through every change of the outline. -/
theorem stepKeepsDerivedStates : Obligations.StepKeepsDerivedStates := by
  intro s t run
  refine ⟨gaugeOk_steps.steps.step run, attnOk_steps.step run, fun ok => ?_⟩
  obtain ⟨derived, kept⟩ := (inputsOk_iff s).mp ok
  exact (inputsOk_iff t).mpr ⟨inputsDerived_steps.step run derived, inputsKept_outlined.steps.step run kept⟩

/-- Settles O59: the link's queues by what the link's operations leave of them, and the pool, the coil table, the schedule queue and the
span queues through every change of the outline. -/
theorem stepKeepsStoresAndSpans : Obligations.StepKeepsStoresAndSpans := by
  intro s t run
  refine ⟨fun ok => ?_, fun ok => ?_, fun ok => ?_⟩
  · obtain ⟨link, stores⟩ := (roomOk_iff s).mp ok
    exact (roomOk_iff t).mpr ⟨linkRoom_steps.step run link, storesRoom_outlined.steps.step run stores⟩
  · exact (coilsOk_iff t).mpr (keysRise_outlined.steps.step run ((coilsOk_iff s).mp ok))
  · exact (queuesOk_iff t).mpr (distsRise_outlined.steps.step run ((queuesOk_iff s).mp ok))

end Sys2Proof
end

section
/-! Steps, commands and resets: what a command leaves of the queue and of the lines, the values after a reset, the reset commands, and
RESTART. -/
namespace Sys2Proof.Machine
open Sys2Proof.Safety

/-! ### The queue and the lines -/

/-- The queue of commands and the lines are as they were. -/
structure QueueAndPins (p : Pins) (l : List Instr) (s : State) : Prop where
  pins : s.pins = p
  pending : s.pending = l

section
variable {p : Pins} {l : List Instr}

theorem queueAndPins_calm {s t : State} (same : t.calm = s.calm) (h : QueueAndPins p l s) : QueueAndPins p l t :=
  ⟨(pins_of_calm same).trans h.pins, (pending_of_calm same).trans h.pending⟩

theorem queueAndPins_tripless : Tripless (QueueAndPins p l) where
  tripless same h := ⟨(by have e := congrArg State.pins same; exact e : _ = _).trans h.pins,
    (by have e := congrArg State.pending same; exact e : _ = _).trans h.pending⟩
  link _ _ h := ⟨h.pins, h.pending⟩

theorem queueAndPins_answers : Answers (QueueAndPins p l) where
  toWalk := Handed.walk
    { toTripless := queueAndPins_tripless
      record := fun _ h => ⟨h.pins, h.pending⟩
      inputs := fun _ h => queueAndPins_calm (calm_derivedConditions _) ⟨h.pins, h.pending⟩
      blocks := fun h => queueAndPins_tripless.gears.restartBlocks ⟨h.pins, h.pending⟩ }
  reply _ _ h := ⟨h.pins, h.pending⟩
  source {_ x} _ _ _ _ _ _ _ h :=
    queueAndPins_tripless.evalAttn (queueAndPins_calm (calm_latchCheck _ x) ⟨h.pins, h.pending⟩)
end

/-- A well-formed command answers a next state. -/
theorem exec_completes (c : Instr) (s : State) (wf : c.wf = true) : ∃ t, exec c s = .next t := by
  cases c with
  | unknownRequest type tag p =>
    simp only [Instr.wf, Bool.and_eq_true, Bool.not_eq_true'] at wf
    obtain ⟨notRequest, fits⟩ := wf
    exact ⟨_, by simp only [exec, execUnknownRequest, notRequest, fits]; rfl⟩
  | sample n raw valid =>
    simp only [exec, execSample]
    split
    · exact ⟨_, rfl⟩
    · exact ⟨_, rfl⟩
  | stripPresentChange b =>
    simp only [exec, execStripPresentChange]
    split
    · exact ⟨_, rfl⟩
    · exact ⟨_, rfl⟩
  | estopInputChange e low =>
    simp only [exec, execEstopInputChange]
    split
    · exact ⟨_, rfl⟩
    · exact ⟨_, rfl⟩
  | _ => exact ⟨_, rfl⟩

theorem unlessHeld_pins {f : State → State} {s : State} (kept : ∀ u, (f u).pins = u.pins ∧ (f u).pending = u.pending) :
    (unlessHeld f s).pins = s.pins ∧ (unlessHeld f s).pending = s.pending := by
  unfold unlessHeld
  split
  · exact ⟨rfl, rfl⟩
  · exact kept s

theorem leaveReset_pins (cause : ResetCause) (s : State) :
    (leaveReset cause s).pins = s.pins ∧ (leaveReset cause s).pending = s.pending := by
  rw [leaveReset_eq cause]
  exact ⟨rfl, rfl⟩

/-- A line's change leaves the queue and the straps; what else of the lines changes is the line it names. -/
theorem exec_line {c : Instr} {s t : State} (line : Instr.changesLine c = true) (run : exec c s = .next t) :
    t.pending = s.pending ∧ t.pins.straps = s.pins.straps ∧ (c = .powerOnReset → t.pins = s.pins) := by
  cases c with
  | stripPresentChange b =>
    simp only [exec, execStripPresentChange] at run
    split at run
    · cases run
      exact ⟨rfl, rfl, fun e => by cases e⟩
    · cases run
      obtain ⟨pins, pending⟩ := unlessHeld_pins (f := stripRawChanged) (s := { s with pins := { s.pins with strip := b } })
        fun _ => ⟨rfl, rfl⟩
      exact ⟨pending, by rw [pins], fun e => by cases e⟩
  | estopInputChange e low =>
    simp only [exec, execEstopInputChange] at run
    split at run
    · cases run
      exact ⟨rfl, rfl, fun e => by cases e⟩
    · cases run
      obtain ⟨pins, pending⟩ := unlessHeld_pins (f := estopRawChanged e)
        (s := { s with pins := { s.pins with estopLow := s.pins.estopLow.set e low } }) fun _ => ⟨rfl, rfl⟩
      exact ⟨pending, by rw [pins], fun e => by cases e⟩
  | powerOnReset =>
    cases run
    obtain ⟨pins, pending⟩ := leaveReset_pins .power s
    exact ⟨pending, by rw [pins], fun _ => pins⟩
  | resetAsserted =>
    cases run
    exact ⟨rfl, rfl, fun e => by cases e⟩
  | resetReleased =>
    cases run
    split
    · obtain ⟨pins, pending⟩ := leaveReset_pins .line { s with pins := { s.pins with reset := false } }
      exact ⟨pending, by rw [pins], fun e => by cases e⟩
    · exact ⟨rfl, rfl, fun e => by cases e⟩
  | _ => cases line

/-! ### Resets -/

theorem startedPowerFrame_eq : startedPowerFrame = (Report.started .power).frame false := by decide +kernel

/-- R142: an event is not taken while the part is held. -/
theorem unlessHeld_held {f : State → State} {s : State} (held : s.pins.reset = true) : unlessHeld f s = s := by
  simp [unlessHeld, held]

/-- R142: a held part takes no command but the lines' changes and the resets. -/
theorem exec_held {c : Instr} {s : State} (held : s.pins.reset = true) (wf : c.wf = true) (notLine : Instr.changesLine c = false) :
    exec c s = .next s := by
  cases c with
  | stripPresentChange | estopInputChange | powerOnReset | resetAsserted | resetReleased => cases notLine
  | unknownRequest type tag p =>
    simp only [Instr.wf, Bool.and_eq_true, Bool.not_eq_true'] at wf
    obtain ⟨notRequest, fits⟩ := wf
    simp [exec, execUnknownRequest, notRequest, fits, receiveFrame, held]
  | sample n raw valid =>
    simp only [exec, execSample]
    split
    · rw [unlessHeld_held held]
    · rfl
  | receiveByte | lineBreak | byteGapExpiry | supervisionExpiry | transmitDone | staleTimerExpiry | pulse | count | headWatchExpiry
  | tailWatchExpiry | stripPresentDebounceExpiry | estopDebounceExpiry | updateExpiry | rampDone | settleTimerExpiry =>
    exact congrArg Host.Outcome.next (unlessHeld_held held)
  | _ =>
    rw [exec_request wf rfl rfl, request_held held]

/-! ### RESTART -/

/-- Deriving several stands' states writes those states alone, from what each is derived from before. -/
theorem deriveAll_eq (l : List Stand) (s : State) :
    l.foldl (fun u k => deriveAgc k u) s =
      { s with gauge := { s.gauge with
          stands := .ofFn fun k =>
            if k ∈ l then { s.gauge.stands.get k with st := agcStateOf s k } else s.gauge.stands.get k } } := by
  induction l generalizing s with
  | nil =>
    have same : (PerStand.ofFn fun k => if k ∈ ([] : List Stand) then { s.gauge.stands.get k with st := agcStateOf s k }
        else s.gauge.stands.get k) = s.gauge.stands := PerStand.eq_of_get fun k => by simp
    rw [same]
    rfl
  | cons j l ih =>
    have stand (k : Stand) : (deriveAgc j s).gauge.stands.get k =
        if k = j then { s.gauge.stands.get k with st := agcStateOf s k } else s.gauge.stands.get k := by
      simp only [deriveAgc, setAgc_gauge, PerStand.get_set]
      split
      · subst k
        rfl
      · rfl
    have derived (k : Stand) : agcStateOf (deriveAgc j s) k = agcStateOf s k :=
      agcStateOf_congr (by rw [stand]; split <;> rfl) (by rw [stand]; split <;> rfl) rfl rfl rfl
    have stands : (PerStand.ofFn fun k => if k ∈ l then { (deriveAgc j s).gauge.stands.get k with st := agcStateOf (deriveAgc j s) k }
        else (deriveAgc j s).gauge.stands.get k) =
        .ofFn fun k => if k ∈ j :: l then { s.gauge.stands.get k with st := agcStateOf s k } else s.gauge.stands.get k :=
      PerStand.eq_of_get fun k => by
        simp only [PerStand.get_ofFn, stand, derived, List.mem_cons]
        by_cases here : k = j
        · simp [here]
        · simp [here]
    rw [List.foldl_cons, ih, stands]
    rfl

theorem running_iff (s : State) :
    running s = true ↔ s.ilk.stop = false ∨ ∃ k, (s.eng.get k).act ≠ .idle ∨ (s.eng.get k).pending ≠ [] := by
  have rest (k : Stand) : (s.eng.get k).atRest = true ↔ (s.eng.get k).act = .idle ∧ (s.eng.get k).pending = [] := by
    rw [Engine.atRest, Bool.and_eq_true, Activity.isIdle_iff, List.isEmpty_iff]
  simp only [running, Bool.or_eq_true, Bool.not_eq_true', List.any_eq_true, Stand.mem_all, true_and, ← Bool.not_eq_true, rest,
    Classical.not_and_iff_not_or_not]

theorem answerRestart_running {s : State} (moving : running s = true) : answerRestart s = refuse .running s := by
  rw [answerRestart, if_pos moving]

theorem answerRestart_atRest {s : State} (rest : running s = false) :
    answerRestart s = { state := restartPart s, status := .ok, content := [] } := by
  rw [answerRestart, if_neg (by simp [rest])]

/-- R112: the latching check is an edge of an unmasked LEVEL source that is QUIET with its condition true. -/
theorem latchCheck_eq (x : Source) (s : State) :
    latchCheck s x =
      if (s.trips.src.get x).masked = false ∧ (s.trips.src.get x).mode = .level ∧ (s.trips.src.get x).st = .quiet ∧
        (s.trips.src.get x).live = true then edge x s else s := by
  unfold latchCheck edge
  dsimp only
  by_cases due : (s.trips.src.get x).masked = false ∧ (s.trips.src.get x).mode = .level ∧ (s.trips.src.get x).st = .quiet ∧
      (s.trips.src.get x).live = true
  · obtain ⟨unmasked, level, quiet, live⟩ := due
    simp [unmasked, level, quiet, live]
  · rw [if_neg due, if_neg]
    simpa only [Bool.and_eq_true, Bool.not_eq_true', beq_iff_eq, and_assoc] using due

end Sys2Proof.Machine

namespace Sys2Proof
open Machine Safety

/-- Settles O1, by the step's definition. -/
theorem stepRunsFrontCommand : Obligations.StepRunsFrontCommand := by
  intro c rest s queue
  rw [step, queue]

/-- Settles O2, by a millisecond's definition: held it is nothing, and free it lowers each timer. -/
theorem idleStepLetsTimersRun : Obligations.IdleStepLetsTimersRun := by
  intro s empty
  have idle : step s = .next (millisecond s) := by rw [step, empty]
  refine ⟨fun held => ?_, fun free => ⟨millisecond s, idle, fun c => ?_, millisecond_eng free, fun e => ?_, ?_⟩⟩
  · rw [idle, millisecond, if_pos held]
  · simp [millisecond, free, lower]
  · simp [millisecond, free, lower]
  · rw [millisecond, if_neg (by simp [free])]
    rfl

/-- Settles O3: the arms of `exec` answer a next state; commands that change no line are a walk through operations that leave the queue
and the lines, and the others are read off. -/
theorem commandsCompleteAndLeaveQueue : Obligations.CommandsCompleteAndLeaveQueue := by
  refine ⟨fun c s wf => ?_, fun type tag p s known => ?_, fun type tag p s unknown long => ?_⟩
  · obtain ⟨t, run⟩ := exec_completes c s wf
    cases line : Instr.changesLine c with
    | false =>
      obtain ⟨pins, pending⟩ := queueAndPins_answers.exec c line run ⟨rfl, rfl⟩
      exact ⟨t, run, pending, by rw [pins], fun changed => absurd pins changed⟩
    | true =>
      obtain ⟨pending, straps, power⟩ := exec_line line run
      refine ⟨t, run, pending, straps, fun changed => ?_⟩
      cases c with
      | stripPresentChange b => exact .inl ⟨b, rfl⟩
      | estopInputChange e b => exact .inr (.inl ⟨e, b, rfl⟩)
      | powerOnReset => exact absurd (power rfl) changed
      | resetAsserted => exact .inr (.inr (.inl rfl))
      | resetReleased => exact .inr (.inr (.inr rfl))
      | _ => cases line
  · simp [exec, execUnknownRequest, known]
  · simp [exec, execUnknownRequest, unknown, payloadFits, long]

/-- Settles O53, by the reset values' definition, table by table. -/
theorem resetValues : Obligations.ResetValues := by
  refine ⟨fun c => ?_, fun k => ?_, rfl, fun k => ?_, fun k => ?_, rfl, rfl, rfl, rfl, rfl, rfl, rfl, rfl, rfl, rfl, rfl, fun p => ?_,
    fun k => ?_, rfl, rfl, rfl, rfl, rfl, rfl, rfl, rfl, fun k => ?_, fun k => ?_, rfl, rfl, rfl, fun x => ?_, rfl, rfl, rfl, rfl,
    fun k => ?_, fun e => ?_, rfl, rfl, rfl, rfl, rfl, rfl, rfl, rfl, rfl, rfl, rfl, rfl, rfl, ?_⟩
  · cases c with
    | force k => cases k <;> rfl
    | position k => cases k <;> rfl
    | entry | exit => rfl
  · cases k <;> exact ⟨rfl, rfl⟩
  · cases k with
    | entry => exact ⟨rfl, rfl⟩
    | after k => cases k <;> exact ⟨rfl, rfl⟩
  · cases k with
    | entry => rfl
    | after k => cases k <;> rfl
  · cases p with
    | entry | exit => exact ⟨rfl, rfl⟩
    | stand k => cases k <;> exact ⟨rfl, rfl⟩
  · cases k <;> exact ⟨rfl, rfl⟩
  · cases k <;> rfl
  · cases k <;> exact ⟨rfl, rfl⟩
  · cases x with
    | overload k => cases k <;> exact ⟨rfl, rfl, rfl, rfl, rfl, rfl⟩
    | position k => cases k <;> exact ⟨rfl, rfl, rfl, rfl, rfl, rfl⟩
    | estop e => cases e <;> exact ⟨rfl, rfl, rfl, rfl, rfl, rfl⟩
    | _ => exact ⟨rfl, rfl, rfl, rfl, rfl, rfl⟩
  · cases k <;> rfl
  · cases e <;> rfl
  · exact congrArg some startedPowerFrame_eq

/-- Settles O54: the resets' definitions, and a held part's commands arm by arm. -/
theorem resetCommandsStartAfresh : Obligations.ResetCommandsStartAfresh := by
  intro s fresh
  refine ⟨rfl, fun free => ?_, fun held => ?_, fun held => ?_, fun free => ?_, fun b held => ?_, fun e b held => ?_,
    fun c held wf notStrip notEstop notPower notAsserted notReleased => ?_⟩
  · show Host.Outcome.next (leaveReset .power s) = _
    have blocks : (blocksAtReset .power s).pins.reset = false := free
    rw [leaveReset, if_neg (by simp [blocks]), blocksAtReset, free]
    rfl
  · show Host.Outcome.next (leaveReset .power s) = _
    have blocks : (blocksAtReset .power s).pins.reset = true := held
    rw [leaveReset, if_pos blocks, blocksAtReset, held]
    rfl
  · show Host.Outcome.next (if s.pins.reset then leaveReset .line { s with pins := { s.pins with reset := false } } else s) = _
    rw [if_pos held]
    rfl
  · show Host.Outcome.next (if s.pins.reset then leaveReset .line { s with pins := { s.pins with reset := false } } else s) = _
    rw [if_neg (by simp [free])]
  · simp only [exec, execStripPresentChange]
    split
    · rename_i same
      rw [← same]
    · rw [unlessHeld_held (by exact held)]
  · simp only [exec, execEstopInputChange]
    split
    · rename_i same
      rw [← same, PerEStop.set_get]
    · rw [unlessHeld_held (by exact held)]
  · refine exec_held held wf ?_
    cases c with
    | stripPresentChange b => exact absurd rfl (notStrip b)
    | estopInputChange e b => exact absurd rfl (notEstop e b)
    | powerOnReset => exact absurd rfl notPower
    | resetAsserted => exact absurd rfl notAsserted
    | resetReleased => exact absurd rfl notReleased
    | _ => rfl

/-- Settles O60, by what each invariant's preservation says of a reset. -/
theorem resetMeetsInvariants : Obligations.ResetMeetsInvariants := by
  have inputs : InputsDerived State.reset := by
    refine ⟨fun c => ?_, ⟨rfl, rfl, rfl⟩⟩
    cases c with
    | force k => cases k <;> exact fun _ => rfl
    | position k => cases k <;> exact fun _ => rfl
    | entry | exit => exact fun _ => rfl
  refine ⟨fun k => ?_, slotsOk_of_empty rfl rfl, actionsOk_reset rfl rfl, ⟨fun k => ?_, by decide, fun _ => rfl⟩, fun _ => ?_,
    (inputsOk_iff _).mpr ⟨inputs, inputsKept_outlined.reset⟩,
    (roomOk_iff _).mpr ⟨⟨by decide, by decide⟩, storesRoom_outlined.reset⟩, (coilsOk_iff _).mpr keysRise_outlined.reset,
    (queuesOk_iff _).mpr distsRise_outlined.reset⟩
  · cases k <;> exact engineOk_reset
  · cases k <;> rfl
  · decide

/-- Settles O52: RESTART is refused while the mill may move; what it clears is `restartCleared` with every AGC state derived. -/
theorem restartClearsRunningState : Obligations.RestartClearsRunningState := by
  intro tag s may h moving
  have heardRunning : running h = true ↔ s.ilk.stop = false ∨ moving := by
    have := running_iff h
    rwa [show h.ilk = s.ilk from heard_ilk s, show h.eng = s.eng from heard_eng s] at this
  refine ⟨fun may' => request_replied may (answerRestart_running (heardRunning.mpr may')), fun stopped still => ?_⟩
  have rest : running h = false := by
    rw [← Bool.not_eq_true, heardRunning]
    rintro (released | moves)
    · exact absurd (released.symm.trans stopped) (by simp)
    · exact still moves
  refine ⟨restartBlocks h, request_replied may (answerRestart_atRest rest), ?_⟩
  have blocks : restartBlocks h = { restartCleared h with gauge := { (restartCleared h).gauge with
      stands := .ofFn fun k => { (restartCleared h).gauge.stands.get k with st := agcStateOf (restartCleared h) k } } } := by
    rw [restartBlocks_eq, deriveAll_eq]
    simp only [Stand.mem_all, if_true]
  have chan : h.chan = s.chan := heard_chan s
  have gauge : h.gauge = s.gauge := heard_gauge s
  have trips : h.trips = s.trips := heard_trips s
  have ilk : h.ilk = s.ilk := heard_ilk s
  have trk : h.trk = s.trk := heard_trk s
  have sched : h.sched = s.sched := heard_sched s
  have counters : h.counters = s.counters := heard_counters s
  have link : h.link.reports = s.link.reports ∧ h.link.lost = s.link.lost := by
    show (heard s).link.reports = _ ∧ (heard s).link.lost = _
    rw [heard_eq]
    exact ⟨rfl, rfl⟩
  obtain ⟨reports, lost⟩ := link
  rw [blocks]
  refine ⟨?_, fun c => ?_, fun c => ?_, fun k => ?_, fun k => ?_, fun x => ?_, fun x v => latchCheck_eq x v⟩
  · rw [← trk, ← sched, ← gauge, ← trips, ← ilk, ← reports, ← lost]
    rfl
  · show (restartChannels h.chan).recs.get c = _
    rw [chan, restartChannels, PerChannel.get_ofFn]
    dsimp only
    split
    · rename_i enabled
      simp [ChannelRec.cleared, enabled]
    · rfl
  · show (PerChannel.ofFn fun c => ((restartChannels h.chan).recs.get c).st).get c = _
    rw [PerChannel.get_ofFn]
    rfl
  · show (PerSpan.ofFn fun k => restartCounter (h.counters.get k)).get k = _
    rw [PerSpan.get_ofFn, counters]
    rfl
  · have cleared : (restartCleared h).gauge.stands.get k = restartAgc (s.gauge.stands.get k) := by
      rw [← gauge]
      exact PerStand.get_ofFn _ k
    show (PerStand.ofFn _).get k = _
    rw [PerStand.get_ofFn, cleared]
    have derived : agcStateOf (restartCleared h) k = if (s.gauge.stands.get k).mode = .off then .off else .armed := by
      simp only [agcStateOf, cleared]
      rfl
    rw [derived]
    rfl
  · show (PerSource.ofFn fun x => restartSource h.ilk x (h.trips.src.get x)).get x = _
    rw [PerSource.get_ofFn, trips, ilk]
    cases x <;> rfl

end Sys2Proof
end

section
/-! The control link: requests' payloads read back (R166, R167), the receiver byte by byte (R146, R147), the decoder's checks (R148 to
R152), the transmitter (R153, R164), and the supervision expiry (R137, R149). -/
namespace Sys2Proof.Machine
open Sys2Proof.Safety

/-! ### Payloads -/

/-- R167: a two-byte value is its high byte, then its low byte. -/
theorem word_bytes (w : Word) : word (w.extractLsb' 8 8) (w.extractLsb' 0 8) = w := by
  refine BitVec.eq_of_getLsbD_eq fun i hi => ?_
  simp only [word, BitVec.getLsbD_append, BitVec.getLsbD_extractLsb']
  split
  · simp [*]
  · simp [show i - 8 < 8 by omega, show 8 + (i - 8) = i by omega]

/-- R167: a four-byte value is its bytes, most significant first. -/
theorem long_bytes (w : Long) :
    long (w.extractLsb' 24 8) (w.extractLsb' 16 8) (w.extractLsb' 8 8) (w.extractLsb' 0 8) = w := by
  refine BitVec.eq_of_getLsbD_eq fun i hi => ?_
  simp only [long, BitVec.getLsbD_append, BitVec.getLsbD_extractLsb']
  split
  · simp [*]
  · split
    · simp [*, show 8 + (i - 8) = i by omega]
    · split
      · simp [*, show 16 + (i - 8 - 8) = i by omega]
      · simp [show i - 8 - 8 - 8 < 8 by omega, show 24 + (i - 8 - 8 - 8) = i by omega]

theorem isRequestType_iff (type : Byte) : isRequestType type = true ↔ 1 ≤ type.toNat ∧ type.toNat ≤ 27 := by
  simp [isRequestType]

/-- R166: the request types are the numbers that have a payload size. -/
theorem payloadSize?_isSome (type : Byte) : (payloadSize? type).isSome = isRequestType type := by
  rw [Bool.eq_iff_iff, isRequestType_iff]
  unfold payloadSize?
  generalize type.toNat = n
  split
  case h_28 =>
    simp only [imp_false] at *
    simp only [Option.isSome_none, Bool.false_eq_true, false_iff]
    omega
  all_goals simp [*]

theorem requestOf_unknown {type : Byte} (unknown : isRequestType type = false) (tag : Byte) (p : List Byte) :
    requestOf type tag p = .unknownRequest type tag p := by
  have range : type.toNat = 0 ∨ 27 < type.toNat := by
    have := mt (isRequestType_iff type).mpr (by simp [unknown])
    omega
  unfold requestOf
  generalize type.toNat = n at *
  split <;> first | rfl | (exfalso; revert range; decide)

theorem channelFieldsAt_bytes (f : ChannelFields) :
    channelFieldsAt ([f.channel, f.enable] ++ wordBytes f.zero ++ wordBytes f.span ++ longBytes f.lo ++ longBytes f.hi ++ [f.n] ++
      wordBytes f.staleTime) = f := by
  simp [channelFieldsAt, byteAt, wordAt, longAt, wordBytes, longBytes, word_bytes, long_bytes]

theorem standFieldsAt_bytes (f : StandFields) :
    standFieldsAt ([f.stand] ++ wordBytes f.gapMin ++ wordBytes f.gapMax ++ wordBytes f.f0 ++ wordBytes f.m ++ wordBytes f.fMax ++
      wordBytes f.biteOn ++ wordBytes f.biteOff ++ wordBytes f.setRate ++ wordBytes f.agcRate ++ wordBytes f.retractRate ++
      wordBytes f.stepMax ++ wordBytes f.settleTime ++ wordBytes f.inPos ++ wordBytes f.posErrLimit ++
      wordBytes f.posErrCount) = f := by
  simp [standFieldsAt, byteAt, wordAt, wordBytes, word_bytes]

theorem scheduleFieldsAt_bytes (f : ScheduleFields) :
    scheduleFieldsAt (wordBytes f.coil ++ wordBytes f.hNom ++ f.stands.toList.flatMap fun g =>
      wordBytes g.gap ++ wordBytes g.h ++ wordBytes g.q ++ wordBytes g.gFb ++ wordBytes g.gFf) = f := by
  simp [scheduleFieldsAt, standScheduleFieldsAt, byteAt, wordAt, wordBytes, word_bytes, PerStand.toList, PerStand.ofFn, Stand.num]

/-- R166, R167: reading a well-formed request's payload back gives the request. -/
theorem requestOf_of_parts {i : Instr} {type tag : Byte} {p : List Byte} (wf : i.wf = true)
    (parts : requestParts? i = some (type, tag, p)) : requestOf type tag p = i := by
  cases i <;> cases parts
  case unknownRequest => exact requestOf_unknown (by simp_all [Instr.wf]) _ _
  case setChannel f => exact congrArg (Instr.setChannel _) (channelFieldsAt_bytes f)
  case setStand f => exact congrArg (Instr.setStand _) (standFieldsAt_bytes f)
  case loadSchedule f => exact congrArg (Instr.loadSchedule _) (scheduleFieldsAt_bytes f)
  all_goals
    simp [requestOf, agcFieldsAt, trackingFieldsAt, sourceFieldsAt, byteAt, wordAt, wordBytes, word_bytes]

/-- R144, R166: a well-formed request's payload fits a frame and has its type's size. -/
theorem payload_size {i : Instr} {type tag : Byte} {p : List Byte} (wf : i.wf = true)
    (parts : requestParts? i = some (type, tag, p)) :
    p.length ≤ 240 ∧ payloadSize? type = if isRequestType type then some p.length else none := by
  cases i with
  | unknownRequest type tag p =>
    cases parts
    have plain : isRequestType type = false := by simp_all [Instr.wf]
    have fits : p.length ≤ 240 := by simp_all [Instr.wf, payloadFits]
    have sizeless : payloadSize? type = none := by simp [← Option.not_isSome_iff_eq_none, payloadSize?_isSome, plain]
    simp [plain, fits, sizeless]
  | _ => cases parts <;> simp [payloadSize?, isRequestType, wordBytes, longBytes, PerStand.toList]

/-! ### The receiver -/

theorem exec_receiveByte (b : Byte) {s : State} (free : s.pins.reset = false) : exec (.receiveByte b) s = .next (takeByte b s) :=
  congrArg Host.Outcome.next (unlessHeld_free free)

theorem setRx_eq (rx : Rx) (gap : Option Nat) (s : State) :
    setRx rx gap s = { s with link := { s.link with rx := rx, gapLeft := gap } } := rfl

theorem setRx_setRx (rx rx' : Rx) (gap gap' : Option Nat) (s : State) :
    setRx rx' gap' (setRx rx gap s) = setRx rx' gap' s := rfl

theorem takeByte_start {s : State} (rx : s.link.rx = .hunt) : takeByte 0xD5#8 s = setRx .length (some 32) s := by
  simp [takeByte, rx, Config.startByte, Config.byteGap]

theorem takeByte_other {b : Byte} {s : State} (rx : s.link.rx = .hunt) (other : b ≠ 0xD5#8) : takeByte b s = s := by
  simp [takeByte, rx, Config.startByte, other]

theorem takeByte_length {b : Byte} {s : State} (rx : s.link.rx = .length) :
    takeByte b s = if 2 ≤ b.toNat ∧ b.toNat ≤ 242 then setRx (.body b.toNat []) (some 32) s else setRx .hunt none s := by
  simp [takeByte, rx, toHunt, Config.byteGap]

theorem takeByte_body {b : Byte} {len : Nat} {got : List Byte} {s : State} (rx : s.link.rx = .body len got) :
    takeByte b s =
      setRx (if got.length + 1 = len then .check len (got ++ [b]) none else .body len (got ++ [b])) (some 32) s := by
  simp [takeByte, rx, Config.byteGap]

theorem takeByte_checkHigh {b : Byte} {len : Nat} {got : List Byte} {s : State} (rx : s.link.rx = .check len got none) :
    takeByte b s = setRx (.check len got (some b)) (some 32) s := by
  simp [takeByte, rx, Config.byteGap]

theorem takeByte_checkLow {b high : Byte} {len : Nat} {got : List Byte} {s : State}
    (rx : s.link.rx = .check len got (some high)) :
    takeByte b s =
      if crc (BitVec.ofNat 8 len :: got) = high ++ b then frameReceived got (setRx .hunt none s) else setRx .hunt none s := by
  simp [takeByte, rx, checkAgrees, word, toHunt]

/-- R146: the bytes of the body, one after another, end in the wait for the check. -/
theorem execAll_body (rest : List Byte) (got p : List Byte) (len : Nat) {s : State} (free : s.pins.reset = false)
    (some_left : p ≠ []) (all : got.length + p.length = len) :
    execAll ((p ++ rest).map .receiveByte) (setRx (.body len got) (some 32) s) =
      execAll (rest.map .receiveByte) (setRx (.check len (got ++ p) none) (some 32) s) := by
  induction p generalizing got with
  | nil => exact absurd rfl some_left
  | cons b p ih =>
    have taken := exec_receiveByte b (s := setRx (.body len got) (some 32) s) free
    rw [takeByte_body (s := setRx (.body len got) (some 32) s) rfl, setRx_setRx] at taken
    simp only [List.cons_append, List.map_cons, execAll, taken]
    cases p with
    | nil =>
      simp only [List.length_singleton] at all
      simp [all]
    | cons c p =>
      simp only [List.length_cons] at all
      rw [if_neg (by omega), ih (got ++ [b]) (by simp) (by simp; omega)]
      simp

theorem payloadSize?_eq_none {type : Byte} (unknown : isRequestType type = false) : payloadSize? type = none := by
  simp [← Option.not_isSome_iff_eq_none, payloadSize?_isSome, unknown]

/-- R151: a frame of no request type is turned away. -/
theorem decodeFrame_unknown {type : Byte} (unknown : isRequestType type = false) (tag : Byte) (p : List Byte) (s : State) :
    decodeFrame type tag p s = turnAway type tag .unknownType s := by
  simp [decodeFrame, payloadSize?_eq_none unknown]

/-- R151: a frame whose payload has its type's size goes to its owner. -/
theorem decodeFrame_sized {type : Byte} {p : List Byte} (sized : payloadSize? type = some p.length) (tag : Byte) (s : State) :
    decodeFrame type tag p s = decode type tag (ownerOf (requestOf type tag p)) s := by
  simp [decodeFrame, sized]

/-- R148: a request's command is its frame, received and decoded (log 4). -/
theorem exec_of_parts {i : Instr} {type tag : Byte} {p : List Byte} (wf : i.wf = true)
    (parts : requestParts? i = some (type, tag, p)) (s : State) :
    exec i s = .next (receiveFrame (decodeFrame type tag p) s) := by
  obtain ⟨fits, size⟩ := payload_size wf parts
  cases known : isRequestType type with
  | true =>
    rw [known, if_pos rfl] at size
    rw [exec_request wf parts known, request, funext (decodeFrame_sized size tag), requestOf_of_parts wf parts]
  | false =>
    cases i with
    | unknownRequest type tag p =>
      cases parts
      simp [exec, execUnknownRequest, known, payloadFits, fits, funext (decodeFrame_unknown known tag p)]
    | _ => cases parts <;> simp [isRequestType] at known

/-- R144, R146: the bytes of a frame, received from HUNT, are taken as its type, tag and payload. -/
theorem execAll_frame (type tag : Byte) {p : List Byte} {s : State} (fits : p.length ≤ 240) (free : s.pins.reset = false)
    (rx : s.link.rx = .hunt) :
    execAll ((frame type tag p).map .receiveByte) s = .next (frameReceived (type :: tag :: p) (setRx .hunt none s)) := by
  have size : (BitVec.ofNat 8 (p.length + 2)).toNat = p.length + 2 := by simp; omega
  have start := exec_receiveByte 0xD5#8 free
  rw [takeByte_start rx] at start
  have length := exec_receiveByte (BitVec.ofNat 8 (p.length + 2)) (s := setRx .length (some 32) s) free
  rw [takeByte_length rfl, size, if_pos (by omega), setRx_setRx] at length
  generalize check : crc (BitVec.ofNat 8 (p.length + 2) :: type :: tag :: p) = c
  have high := exec_receiveByte (c.extractLsb' 8 8) (s := setRx (.check (p.length + 2) (type :: tag :: p) none) (some 32) s) free
  rw [takeByte_checkHigh rfl, setRx_setRx] at high
  have low := exec_receiveByte (c.extractLsb' 0 8)
    (s := setRx (.check (p.length + 2) (type :: tag :: p) (some (c.extractLsb' 8 8))) (some 32) s) free
  have agrees : c = c.extractLsb' 8 8 ++ c.extractLsb' 0 8 := (word_bytes c).symm
  rw [takeByte_checkLow rfl, check, if_pos agrees, setRx_setRx] at low
  have body := execAll_body [c.extractLsb' 8 8, c.extractLsb' 0 8] [] (type :: tag :: p) (p.length + 2) free (by simp)
    (by simp)
  simp only [frame, check, Config.startByte, List.cons_append, List.map_cons, execAll, start, length] at body ⊢
  rw [body]
  simp [execAll, high, low]

/-- R148: the decoder is handed the type, the tag and the payload. -/
theorem frameReceived_eq (type tag : Byte) (p : List Byte) (s : State) :
    frameReceived (type :: tag :: p) s = receiveFrame (decodeFrame type tag p) s := rfl

/-! ### The decoder -/

theorem replied_eq (type tag : Byte) (status : Status) (s : State) :
    replied type tag status [] s = .next (turnAway type tag status s) := rfl

theorem receiveFrame_room (handle : State → State) {s : State} (free : s.pins.reset = false)
    (room : s.link.replies.length < 8) : receiveFrame handle s = handle (heard s) := by
  have notFull : ¬Config.replyListSize ≤ (restartSupervision s).link.replies.length :=
    Nat.not_le.mpr (Nat.lt_of_le_of_lt (Nat.le_of_eq (congrArg List.length (heard_replies s))) room)
  have reached : receiveFrame handle s = handle (restartSupervision s) := by
    simp only [receiveFrame, free, Bool.false_eq_true, if_false, if_neg notFull]
  exact reached

theorem receiveFrame_full (handle : State → State) {s : State} (free : s.pins.reset = false)
    (full : 8 ≤ s.link.replies.length) : receiveFrame handle s = heard s := by
  simp [receiveFrame, free, Config.replyListSize, heard_eq, full]

end Sys2Proof.Machine
namespace Sys2Proof
open Machine Safety
/-- Settles O4: each command's fields are read back where its payload puts them. -/
theorem requestsRoundTrip : Obligations.RequestsRoundTrip := fun _ _ _ _ wf parts =>
  ⟨requestOf_of_parts wf parts, payload_size wf parts⟩

/-- Settles O5: the receiver collects the frame's body, its check agrees, and a request's command is the frame decoded. -/
theorem receivedFrameIsItsRequest : Obligations.ReceivedFrameIsItsRequest := by
  intro i type tag p s wf parts free rx
  have quiet : setRx .hunt none s = { s with link := { s.link with gapLeft := none } } := by
    rw [setRx_eq, ← rx]
  rw [execAll_frame type tag (payload_size wf parts).1 free rx, frameReceived_eq, quiet, exec_of_parts wf parts]

/-- Settles O6: the receiver's transition for each state. -/
theorem receiverTakesEachByte : Obligations.ReceiverTakesEachByte := by
  intro b s free goes
  have goes_eq (rx : Rx) (gap : Option Nat) : goes rx gap = setRx rx gap s := rfl
  simp only [exec_receiveByte b free, goes_eq]
  refine ⟨fun rx => ⟨?_, ?_⟩, fun rx => ⟨?_, ?_⟩, fun len got rx => ⟨?_, ?_⟩, fun len got rx => ?_,
    fun len got high rx => ⟨?_, ?_⟩, ?_, ?_, ?_, ?_⟩
  · rintro rfl
    rw [takeByte_start rx]
  · exact fun other => by rw [takeByte_other rx other]
  · exact fun least most => by rw [takeByte_length rx, if_pos ⟨least, most⟩]
  · exact fun out => by rw [takeByte_length rx, if_neg (by omega)]
  · exact fun more => by rw [takeByte_body rx, if_neg more]
  · exact fun last => by rw [takeByte_body rx, if_pos last]
  · rw [takeByte_checkHigh rx]
  · exact fun agrees => by rw [takeByte_checkLow rx, if_pos agrees]
  · exact fun differs => by rw [takeByte_checkLow rx, if_neg differs]
  · intro receiving
    simp [exec, execLineBreak, unlessHeld_free free, receiving, toHunt]
  · intro hunting
    simp [exec, execLineBreak, unlessHeld_free free, hunting]
  · intro running
    simp [exec, execByteGapExpiry, unlessHeld_free free, Option.isSome_iff_ne_none, running, toHunt]
  · intro stopped
    simp [exec, execByteGapExpiry, unlessHeld_free free, stopped]

/-- Settles O7: the decoder's checks, each with the ones before it passed. -/
theorem decoderChecksInOrder : Obligations.DecoderChecksInOrder := by
  intro type tag p s
  refine ⟨fun unknown => decodeFrame_unknown unknown tag p s, fun n size differs => ?_, fun size high => ?_,
    fun size low => ?_, (payloadSize?_isSome type).symm, fun free => ⟨fun room unknown fits => ?_, fun i wf parts => ?_⟩⟩
  · simp [decodeFrame, size, differs, turnAway]
  · simp [decodeFrame_sized size, decode, high, refuse]
  · simp [decodeFrame_sized size, decode, Nat.not_lt.2 low]
  · rw [exec_of_parts (by simp [Instr.wf, unknown, payloadFits, fits]) rfl, receiveFrame_room _ free room,
      decodeFrame_unknown unknown, replied_eq]
  · have ran := exec_of_parts wf parts s
    refine ⟨fun room known high => ?_, fun full => ?_, ?_⟩
    · have size := (payload_size wf parts).2
      rw [known, if_pos rfl] at size
      rw [ran, receiveFrame_room _ free room, decodeFrame_sized size]
      simp [decode, high, refuse]
    · rw [ran, receiveFrame_full _ free full]
    · exact heard_eq s

end Sys2Proof
end

section
/-! The transmitter's choice (R153, R164), the frames of reports (R169), and the supervision expiry (R137, R149). -/
namespace Sys2Proof.Machine
open Sys2Proof.Safety

/-! ### The transmitter -/

theorem exec_transmitDone {s : State} (free : s.pins.reset = false) :
    exec .transmitDone s = .next { s with link := s.link.next } := congrArg Host.Outcome.next (unlessHeld_free free)

theorem Link.next_idle {l : Link} (noReply : l.replies = []) (noReport : l.reports = []) :
    l.next = { l with sending := none } := by
  simp [Link.next, noReply, noReport]

theorem Link.next_reply {l : Link} {r : Reply} {rs : List Reply} (waits : l.replies = r :: rs)
    (choice : l.reports = [] ∨ (l.firstChoice = false ∧ l.lastSent = .report)) :
    l.next = { l with replies := rs, sending := some r.frame, lastSent := .reply } := by
  cases reports : l.reports with
  | nil => simp [Link.next, waits, reports, Link.beginReply]
  | cons q qs =>
    obtain ⟨later, last⟩ := choice.resolve_left (by simp [reports])
    simp [Link.next, waits, reports, Link.beginReply, Link.prefersReport, later, last]

theorem Link.next_report {l : Link} {q : Report} {qs : List Report} (waits : l.reports = q :: qs)
    (choice : l.replies = [] ∨ l.firstChoice = true ∨ l.lastSent = .reply) :
    l.next = { l with reports := qs, sending := some (q.frame l.lost), lost := false, lastSent := .report,
                      firstChoice := l.firstChoice && l.replies.isEmpty } := by
  cases replies : l.replies with
  | nil => simp [Link.next, waits, replies, Link.beginReport]
  | cons r rs =>
    have preferred : l.prefersReport = true := by simpa [Link.prefersReport, replies] using choice
    simp [Link.next, waits, replies, Link.beginReport, preferred]

theorem Link.pump_idle {l : Link} (idle : l.sending = none) : l.pump = l.next := by simp [Link.pump, idle]

/-! ### The supervision expiry -/

theorem exec_supervisionExpiry {s : State} (free : s.pins.reset = false) :
    exec .supervisionExpiry s = .next (supervisionExpires s) := congrArg Host.Outcome.next (unlessHeld_free free)

/-- R111, R112: an edge latches an unmasked QUIET source. -/
theorem edge_quiet {x : Source} {s : State} (unmasked : (s.trips.src.get x).masked = false)
    (quiet : (s.trips.src.get x).st = .quiet) : edge x s = latch x s := by
  simp [edge, unmasked, quiet]

/-- R114, R129, R132: an eligible STOP source that latches is acted, which asserts the line. -/
theorem latch_stop {x : Source} {s : State} (stop : (s.trips.src.get x).action = .stop) (eligible : s.eligible x = true) :
    (latch x s).ilk.stop = true ∧ ((latch x s).trips.src.get x).st = .pending ∧
      ((latch x s).trips.src.get x).acted = true := by
  have acts := acts_latch x s
  rw [if_pos eligible, acts_act, acts_setSource] at acts
  have source := congrArg (fun a => a.src.get x) acts
  have line := congrArg Acts.stop acts
  simp only [PerSource.get_set_self, acts_src] at source line
  refine ⟨?_, congrArg SourceRec.st source, congrArg SourceRec.acted source⟩
  exact line.trans (by simp [stop])

end Sys2Proof.Machine
namespace Sys2Proof
open Machine Safety

/-- Settles O8: the transmitter's choice by what waits and what it sent last. -/
theorem transmitterAlternates : Obligations.TransmitterAlternates := by
  intro s free
  refine ⟨fun noReply noReport => ?_, fun r rs waits choice => ?_, fun q qs waits choice => ?_, fun r busy => ?_,
    fun r idle noReply noReport => ?_, fun r idle => ?_⟩
  · rw [exec_transmitDone free, Link.next_idle noReply noReport]
  · rw [exec_transmitDone free, Link.next_reply waits choice]
  · rw [exec_transmitDone free, Link.next_report waits choice]
  · rw [addReply_eq, Link.pump_busy (l := { s.link with replies := s.link.replies ++ [r] }) busy]
  · have next := Link.next_reply (l := { s.link with replies := s.link.replies ++ [r] }) (r := r) (rs := []) (by simp [noReply])
      (.inl noReport)
    rw [addReply_eq, Link.pump_idle (l := { s.link with replies := s.link.replies ++ [r] }) idle, next, ← noReply]
  · rw [exec_transmitDone (s := { s with link := { s.link with replies := s.link.replies ++ [r] } }) free, addReply_eq,
      Link.pump_idle (l := { s.link with replies := s.link.replies ++ [r] }) idle]

/-- Settles O11: an edge leaves the lock and the timer, and latches a source in service of a STOP. -/
theorem silenceLocksAndTrips : Obligations.SilenceLocksAndTrips := by
  intro s free
  rw [exec_supervisionExpiry free]
  refine ⟨fun stopped => by simp [supervisionExpires, stopped], fun running => ?_⟩
  have locked : supervisionExpires s =
      edge .linkSilent { s with ilk := { s.ilk with lockOpen := false }, link := { s.link with supLeft := none } } := by
    simp [supervisionExpires, running]
  rw [locked]
  generalize start : ({ s with ilk := { s.ilk with lockOpen := false }, link := { s.link with supLeft := none } } : State) = u
  have trips : u.trips = s.trips := by rw [← start]
  have calm := calm_edge u .linkSilent
  refine ⟨_, rfl, rfl, ?_, ?_, fun quiet unmasked stop lower => ?_⟩
  · rw [ilk_of_calm calm, ← start]
  · have kept := congrArg Link.supLeft (link_of_calm calm)
    rw [← start] at kept ⊢
    exact kept
  · rw [← trips] at quiet unmasked stop lower
    rw [edge_quiet unmasked quiet]
    exact latch_stop stop (decide_eq_true lower)


end Sys2Proof
end

section
/-! The frames of reports, byte by byte (R144, R145, R164, R168, R169). -/
namespace Sys2Proof.Machine

/-- R168: the byte of a set of marks numbered one after another is the sum of their powers of two. -/
theorem sum_marks (l : List (Nat × Bool)) (n : Nat) (numbered : l.map Prod.fst = List.range' n l.length) :
    (l.map fun m => if m.2 then (2 : Int) ^ m.1 else 0).sum = 2 ^ n * (bits (l.map Prod.snd) : Nat) := by
  induction l generalizing n with
  | nil => simp [bits]
  | cons m l ih =>
    obtain ⟨i, b⟩ := m
    simp only [List.map_cons, List.length_cons, List.range'_succ, List.cons.injEq] at numbered
    obtain ⟨rfl, rest⟩ := numbered
    have tail := ih (i + 1) rest
    rw [List.map_cons, List.sum_cons, tail, List.map_cons]
    have step : bits (b :: l.map Prod.snd) = (if b then 1 else 0) + 2 * bits (l.map Prod.snd) := rfl
    dsimp only
    rw [step, Int.natCast_add, Int.mul_add, Int.natCast_mul, Int.pow_succ, Int.mul_assoc]
    cases b <;> simp only [if_true, if_false, Bool.false_eq_true, Int.natCast_zero, Int.natCast_one, Int.mul_zero, Int.mul_one] <;> rfl

theorem marks_eq (l : List (Nat × Bool)) (numbered : l.map Prod.fst = List.range' 0 l.length) :
    be1 (l.map fun m => if m.2 then (2 : Int) ^ m.1 else 0).sum = be1 (bits (l.map Prod.snd)) := by
  rw [sum_marks l 0 numbered]
  simp

/-- R168: a set of stands as the marks of its stands. -/
theorem standMarks_eq (t : PerStand Bool) :
    be1 ((Stand.all.map fun k => (k.num, t.get k)).map fun m => if m.2 then (2 : Int) ^ m.1 else 0).sum = standSet t := by
  rw [sum_marks _ 1 rfl]
  simp [standSet, bits, Stand.all, PerStand.toList, PerStand.get]

/-- R144, R145: a frame's length and check, by its payload. -/
theorem frame_eq (type tag : Byte) (payload : List Byte) :
    ∃ high low, frame type tag payload = 0xD5#8 :: (BitVec.ofNat 8 (payload.length + 2) :: type :: tag :: payload) ++ [high, low] ∧
      crc (BitVec.ofNat 8 (payload.length + 2) :: type :: tag :: payload) = high ++ low :=
  ⟨_, _, rfl, (word_bytes _).symm⟩

theorem frame_length (type tag : Byte) (payload : List Byte) : (frame type tag payload).length = payload.length + 6 := by
  simp [frame]

end Sys2Proof.Machine
namespace Sys2Proof
open Machine Safety

/-- Settles O10: each kind's fields are its payload's bytes. -/
theorem reportFramesHaveOneSize : Obligations.ReportFramesHaveOneSize := by
  refine ⟨fun r lost => ?_, rfl, rfl, rfl, rfl, rfl, rfl, rfl⟩
  intro marks type size fields checked
  have marked (l : List (Nat × Bool)) (numbered : l.map Prod.fst = List.range' 0 l.length) :
      marks l = be1 (bits (l.map Prod.snd)) := marks_eq l numbered
  have body : r.body = fields := by
    cases r with
    | tripRaised x priority action eligible acted =>
      show _ = be1 x.num ++ be1 priority ++ [action.code] ++ marks [(0, eligible), (1, acted)]
      rw [marked _ rfl]
      rfl
    | moveDone k tag origin status clamped ref position =>
      have both := (marked [(0, clamped), (1, position.isSome)] rfl).symm
      cases tag <;> exact congrArg (fun m => _ ++ m ++ be2 ref ++ be2 (position.getD 0)) both
    | segment g =>
      show _ = be2 g.id ++ [g.kind.code] ++ be2 g.coil ++ marks [(0, g.offGauge), (1, g.entryLen.isSome)] ++
        marks (Stand.all.map fun k => (k.num, g.lockonAt.get k)) ++
        marks (Point.all.map fun p => (p.num, (g.dev.get p).isSome)) ++ be2 (g.entryLen.getD 0) ++
        Point.all.flatMap fun p => be2 ((g.dev.get p).getD 0)
      rw [marked [_, _] rfl, marked (Point.all.map _) rfl, show marks _ = standSet g.lockonAt from standMarks_eq _]
      rfl
    | started cause => rfl
    | channelState c st cause => rfl
    | coilEnd number scheduled segments off => rfl
  have length : (bit lost :: r.body).length = size := by
    cases r <;> rfl
  rw [body] at length
  have kind : r.type = type := by cases r <;> rfl
  have same : r.frame lost = frame type 0xFF (bit lost :: fields) := by rw [Report.frame, kind, body]
  obtain ⟨high, low, bytes, check⟩ := frame_eq type 0xFF (bit lost :: fields)
  rw [length] at bytes check
  exact ⟨by rw [same, frame_length, length], high, low, same.trans bytes, check⟩
end Sys2Proof
end

section
/-! The eight queries (R117, R154 to R162): what each answers, and that it changes nothing else. -/
namespace Sys2Proof.Machine
open Sys2Proof.Safety

theorem heard_supLeft (s : State) : ∃ n, heard s = { s with link := { s.link with supLeft := n } } := ⟨_, heard_eq s⟩

/-! ### The place of a record (R161) -/

theorem findQueued_eq_none {p : Seg → Bool} {l : List Queued} (absent : ∀ a ∈ l, p a.seg = false) : findQueued p l = none := by
  induction l with
  | nil => rfl
  | cons q l ih => simp_all [findQueued]

theorem findQueued_eq_some {p : Seg → Bool} {ahead behind : List Queued} {q : Queued} (before : ∀ a ∈ ahead, p a.seg = false)
    (found : p q.seg = true) : findQueued p (ahead ++ q :: behind) = some (ahead.length, q.dist) := by
  induction ahead with
  | nil => simp [findQueued, found]
  | cons a ahead ih => simp_all [findQueued]

theorem Span.all_split (k : Span) :
    Span.all = (Span.all.filter fun j => j.num < k.num) ++ k :: (Span.all.filter fun j => k.num < j.num) := by
  cases k with
  | entry => rfl
  | after j => cases j <;> rfl

theorem placeOf_eq_none {t : Tracking} {id : Nat} (absent : ∀ j, ∀ a ∈ t.queues.get j, a.seg.id ≠ id) : placeOf t id = none := by
  rw [placeOf, List.findSome?_eq_none_iff]
  intro k _
  rw [findQueued_eq_none fun a member => by simpa using absent k a member]
  rfl

theorem placeOf_eq_some {t : Tracking} {id : Nat} {k : Span} {ahead behind : List Queued} {q : Queued}
    (queue : t.queues.get k = ahead ++ q :: behind) (found : q.seg.id = id) (before : ∀ a ∈ ahead, a.seg.id ≠ id)
    (earlier : ∀ j, j.num < k.num → ∀ a ∈ t.queues.get j, a.seg.id ≠ id) :
    placeOf t id = some (k, ahead.length + 1, q.dist) := by
  rw [placeOf, List.findSome?_eq_some_iff]
  refine ⟨_, k, _, Span.all_split k, ?_, fun j member => ?_⟩
  · rw [queue, findQueued_eq_some (fun a member => by simpa using before a member) (by simpa using found)]
    rfl
  · have lower : j.num < k.num := by simpa using (List.mem_filter.1 member).2
    rw [findQueued_eq_none fun a member => by simpa using earlier j lower a member]
    rfl

theorem Tracking.find?_id {t : Tracking} {id : Nat} {g : Seg} (found : t.find? id = some g) : g.id = id := by
  simpa using List.find?_some found

theorem PerSource.toList_eq_map_get {α : Type} (t : PerSource α) : t.toList = Source.all.map t.get := rfl

/-! ### The queries' commands -/

section
variable {tag : Byte} {s : State} (may : MayAnswer tag s)
include may

/-- R161: READ_SEGMENT of a record in use. -/
theorem exec_readSegment_found {id : Word} {g : Seg} (low : id.toNat ≤ 4095) (found : s.trk.find? id.toNat = some g) :
    exec (.readSegment tag id) s = replied 0x09 tag .ok
      (g.bytes ++ (Machine.optional 4 (fun (p : Span × Nat × Int) => be1 p.1.num ++ be1 p.2.1 ++ be2 p.2.2) (placeOf s.trk id.toNat) ++
        [bit (s.trk.under .exit == some id.toNat)] ++ pointSet (.ofFn fun p => s.trk.under p == some id.toNat))) (heard s) := by
  refine request_replied may ?_
  obtain ⟨n, heard⟩ := heard_supLeft s
  rw [heard]
  simp [answerReadSegment, Nat.not_lt.2 low, found, placeBytes, Tracking.find?_id found]

end

end Sys2Proof.Machine
namespace Sys2Proof
open Machine Safety

/-- Settles O13: each query's owner leaves the state as it heard it. -/
theorem queriesOnlyReply : Obligations.QueriesOnlyReply := by
  intro tag x id s may sends
  obtain ⟨n, heard⟩ := heard_supLeft s
  refine ⟨request_replied may ?_, request_replied may ?_, fun none => request_replied may ?_, fun k named => ?_,
    fun none => request_replied may ?_, fun c named => ?_, request_replied may ?_, request_replied may ?_,
    fun high => request_replied may ?_, fun low none => request_replied may ?_, fun g low found => ?_,
    fun none => request_replied may ?_, fun y named => request_replied may ?_⟩
  · rw [heard]; rfl
  · rw [heard]; rfl
  · simp [answerReadStand, none, refuse]
  · intro e g tagOf active count
    have tagged (m : Move) : tagField m.tag = tagOf m := by
      show _ = match m.tag with
        | some t => 1 :: be1 t.num
        | none => [0, 0]
      cases m.tag <;> rfl
    have moving : activeBytes e.act = active := by
      show _ = (match e.act.active? with
        | none => List.replicate 13 0
        | some a => 1 :: ([a.move.origin.code] ++ be2 a.move.target ++ be2 a.move.step ++ be2 a.remaining ++ tagOf a.move ++
            [bit a.move.clamped] ++ match e.act with
              | .held _ p => [1, p.code]
              | _ => [0, 0]) : List Byte)
      cases e.act <;> simp [activeBytes, Activity.active?, Machine.optional, tagged, heldFrom?]
    have waiting : pendingBytes = fun m => [m.origin.code] ++ be2 m.target ++ be2 m.step ++ tagOf m ++ [bit m.clamped] :=
      funext fun m => by rw [pendingBytes, tagged]
    have trim : Machine.optional 2 be2 (if k = .s6 then some s.gauge.m else none) =
        if k = .s6 then 1 :: be2 s.gauge.m else [0, 0, 0] := by
      split <;> rfl
    refine request_replied may ?_
    rw [heard]
    simp only [answerReadStand, named, ← moving, ← trim, counted, waiting, List.append_assoc]
    rfl
  · simp [answerReadChannel, none, refuse]
  · intro r comparators
    refine request_replied may ?_
    have both : comparatorBytes c s = comparators := by cases c <;> rfl
    rw [heard, ← both]
    simp only [answerReadChannel, named, configBytes, counted, List.append_assoc]
    rfl
  · rw [heard]
    simp only [answerReadTrips, PerSource.toList_eq_map_get, List.flatMap_map, counted, List.length_reverse, List.append_assoc]
    rfl
  · rw [heard]; rfl
  · simp [answerReadSegment, high, refuse]
  · rw [heard]
    simp [answerReadSegment, Nat.not_lt.2 low, none, refuse]
  · intro under
    refine ⟨fun k ahead q behind queue named before earlier => ?_, fun absent => ?_⟩
    · show exec _ s = _
      rw [exec_readSegment_found may low found, placeOf_eq_some queue named before earlier]
      simp [Machine.optional, under]
    · show exec _ s = _
      rw [exec_readSegment_found may low found, placeOf_eq_none absent]
      simp [Machine.optional, under, List.replicate]
  · have same : selected (Safety.heard s) = selected s := selected_congr (by rw [heard])
    simp [answerPeekTrip, same, none, refuse]
  · have same : selected (Safety.heard s) = selected s := selected_congr (by rw [heard])
    simp [answerPeekTrip, same, named, selectionBytes]
end Sys2Proof
end

section
/-! The measurement channels: samples, the stale timer, the comparators and SET_CHANNEL (R2 to R17). -/
namespace Sys2Proof.Machine
open Sys2Proof.Safety

/-! ### Samples -/

theorem Channel.ofNat?_eq_none {n : Nat} (h : 13 < n) : Channel.ofNat? n = none := by
  rw [← Option.not_isSome_iff_eq_none, Channel.ofNat?_isSome]
  omega

theorem exec_sample_none {n : Nat} (named : Channel.ofNat? n = none) (raw : Word) (valid : Bool) (s : State) :
    exec (.sample n raw valid) s = .next s := by
  simp [exec, execSample, named]

theorem exec_sample {n : Nat} {c : Channel} {s : State} (named : Channel.ofNat? n = some c) (free : s.pins.reset = false)
    (raw : Word) (valid : Bool) : exec (.sample n raw valid) s = .next (takeSample c raw valid s) := by
  simp [exec, execSample, named, unlessHeld_free free]

theorem exec_staleTimerExpiry {s : State} (free : s.pins.reset = false) (c : Channel) :
    exec (.staleTimerExpiry c) s = .next (staleExpires c s) := congrArg Host.Outcome.next (unlessHeld_free free)

theorem setChannel_get (c : Channel) (s : State) : setChannel c (s.chan.recs.get c) s = s := by
  rw [setChannel, PerChannel.set_get]

section
variable {r : ChannelRec}

/-- R2: OFF and FAULT take no samples. -/
theorem ChannelRec.sampled_deaf (deaf : r.st = .off ∨ r.st = .fault) (raw : Word) (valid : Bool) : r.sampled raw valid = r := by
  rcases deaf with st | st <;> simp [sampled, st]

theorem ChannelRec.sampled_rejected (hears : r.st = .settling ∨ r.st = .valid ∨ r.st = .stale) (raw : Word) :
    r.sampled raw false = r.reject := by
  rcases hears with st | st | st <;> simp [sampled, st]

theorem ChannelRec.sampled_accepted (hears : r.st = .settling ∨ r.st = .valid ∨ r.st = .stale) (raw : Word) :
    r.sampled raw true = r.accept (engineering r raw) := by
  rcases hears with st | st | st <;> simp [sampled, st]

/-- R3: a rejected sample below the third is counted. -/
theorem ChannelRec.reject_counted (few : r.invalidCount < 2) :
    r.reject = { r with invalidCount := r.invalidCount + 1, rangeCount := 0 } := by
  have count : min 3 (r.invalidCount + 1) = r.invalidCount + 1 := by omega
  have below : r.invalidCount + 1 ≠ 3 := by omega
  simp only [reject, count, if_neg below]

/-- R3: the third rejected sample in a row puts the channel in FAULT. -/
theorem ChannelRec.reject_third (many : 2 ≤ r.invalidCount) :
    r.reject = { r with st := .fault, invalidCount := 3, rangeCount := 0, staleLeft := none } := by
  have count : min 3 (r.invalidCount + 1) = 3 := by omega
  simp only [reject, count, if_true]
end

/-- A sample that is not accepted: the record, the report, and the change of state handed on. -/
theorem takeSample_unaccepted {c : Channel} {raw : Word} {s : State} {valid : Bool}
    (unaccepted : (valid && ((s.chan.recs.get c).sampled raw valid).st == .valid) = false) :
    takeSample c raw valid s =
      let old := s.chan.recs.get c
      let new := old.sampled raw valid
      let u := reportIf (sampleReport c old new) (setChannel c new s)
      if old.st = new.st then u else handState c u := by
  simp [takeSample, unaccepted]

theorem sampleReport_same {c : Channel} {old new : ChannelRec} (same : old.st = new.st) : sampleReport c old new = none := by
  simp [sampleReport, same]

/-- R2, R3: a sample that leaves the channel's state, and is not accepted while VALID, stores the record. -/
theorem takeSample_stored {c : Channel} {raw : Word} {s : State} {valid : Bool}
    (unaccepted : (valid && ((s.chan.recs.get c).sampled raw valid).st == .valid) = false)
    (same : (s.chan.recs.get c).st = ((s.chan.recs.get c).sampled raw valid).st) :
    takeSample c raw valid s = setChannel c ((s.chan.recs.get c).sampled raw valid) s := by
  rw [takeSample_unaccepted unaccepted]
  simp only [sampleReport_same same, reportIf, if_pos same]

/-! ### The stale timer -/

theorem staleExpires_running {c : Channel} {s : State}
    (hears : (s.chan.recs.get c).st = .settling ∨ (s.chan.recs.get c).st = .valid) (running : (s.chan.recs.get c).staleLeft ≠ none) :
    staleExpires c s =
      handState c (report (.channelState c .stale .stale)
        (setChannel c { s.chan.recs.get c with st := .stale, staleLeft := none } s)) := by
  obtain ⟨left, left_eq⟩ := Option.ne_none_iff_exists'.1 running
  rcases hears with st | st <;> simp [staleExpires, st, left_eq]

theorem staleExpires_stopped {c : Channel} {s : State}
    (stopped : (s.chan.recs.get c).st = .off ∨ (s.chan.recs.get c).st = .stale ∨ (s.chan.recs.get c).st = .fault ∨
      (s.chan.recs.get c).staleLeft = none) : staleExpires c s = s := by
  rcases stopped with st | st | st | none
  · simp [staleExpires, st]
  · simp [staleExpires, st]
  · simp [staleExpires, st]
  · simp [staleExpires, none]

/-! ### Accepted samples -/

/-- R4 to R9, R11: the record an accepted sample makes, item by item. -/
theorem ChannelRec.accept_eq (r : ChannelRec) (v : Int) :
    r.accept v =
      let value := clamp r.lo r.hi v
      let out : Nat := if v < r.lo ∨ r.hi < v then min 3 (r.rangeCount + 1) else 0
      let kept := (if r.st = .stale then [] else r.filter) ++ [value]
      let list := kept.drop (kept.length - r.n)
      { r with
        filter := list
        filtered := if list = [] then none else some (list.sum.tdiv list.length)
        last := some value
        invalidCount := 0
        rangeCount := out
        staleLeft := if out = 3 then none else some r.staleTime
        st := if out = 3 then .fault else if r.st = .valid ∨ r.n ≤ list.length then .valid else .settling } := by
  unfold accept rangeChecked pushFilter
  simp only [Bool.or_eq_true, decide_eq_true_eq]
  generalize (if v < r.lo ∨ r.hi < v then min 3 (r.rangeCount + 1) else 0) = out
  by_cases third : out = 3 <;> simp [third, settledState, filterMean, truncDiv]

/-- R7: with a filter of at least one value there is a filtered value. -/
theorem ChannelRec.accept_filtered {r : ChannelRec} (filters : 0 < r.n) (v : Int) : ∃ f, (r.accept v).filtered = some f := by
  rw [accept_eq]
  dsimp only
  generalize (if r.st = .stale then [] else r.filter) = before
  refine ⟨_, if_neg fun none => ?_⟩
  have short := congrArg List.length none
  simp only [List.length_drop, List.length_append, List.length_singleton, List.length_nil] at short
  omega

/-- R17: a channel that a sample puts in FAULT or VALID is reported. -/
theorem reportIf_accepted {c : Channel} {old new : ChannelRec} (hears : old.st = .settling ∨ old.st = .valid ∨ old.st = .stale)
    (accepted : new.invalidCount = 0) (s : State) :
    reportIf (sampleReport c old new) s =
      if new.st = .fault then report (.channelState c .fault .outOfRange) s
      else if new.st = .valid ∧ old.st ≠ .valid then report (.channelState c .valid .samples) s
      else s := by
  rcases hears with st | st | st <;> cases new_st : new.st <;> simp [sampleReport, st, new_st, accepted, reportIf]

theorem compareOf_eq (c : Channel) (new : ChannelRec) (s : State) :
    (if new.st = .valid then compareOf c new s else s) =
      match c, new.filtered with
      | .force k, some f => if new.st = .valid then evalComparators k f s else s
      | _, _ => s := by
  unfold compareOf
  cases c <;> cases new.filtered <;> simp

/-- R12: what a channel that is VALID after an accepted value hands on. -/
theorem handAccepted_eq {c : Channel} {new : ChannelRec} {f value : Int} (filtered : new.filtered = some f)
    (last : new.last = some value) (u s : State) :
    handAccepted c (biteOf c u) new s =
      match c with
      | .force k =>
        let bitten :=
          if s.chan.biteIn.get k = u.chan.biteIn.get k then s
          else if u.chan.biteIn.get k then biteOutAt k s
          else biteInAt k s
        forceValue k f (condition (.overload k) (bitten.chan.overload.get k) bitten)
      | .position k => positionValue k f s
      | .entry => entryValue value s
      | .exit => exitValue value s := by
  cases c with
  | force k =>
    have kept : (handBite k (u.chan.biteIn.get k) s).chan = s.chan := chan_of_still (still_handBite s k _)
    have overload : s.chan.overload.get k = (handBite k (u.chan.biteIn.get k) s).chan.overload.get k := by rw [kept]
    simp only [handAccepted, handValue, filtered, biteOf]
    rw [overload]
    rfl
  | position k => simp [handAccepted, handValue, filtered]
  | entry => simp [handAccepted, handValue, last]
  | exit => simp [handAccepted, handValue, last]

/-- R2 to R14: what follows a sample taken with the converter-valid flag. -/
theorem takeSample_accepted {c : Channel} {raw : Word} {s : State}
    (hears : (s.chan.recs.get c).st = .settling ∨ (s.chan.recs.get c).st = .valid ∨ (s.chan.recs.get c).st = .stale) :
    takeSample c raw true s =
      let old := s.chan.recs.get c
      let new := old.accept (engineering old raw)
      let u := reportIf (sampleReport c old new) (setChannel c new s)
      let u := if new.st = .valid then compareOf c new u else u
      let u := if old.st = new.st then u else handState c u
      if new.st = .valid then handAccepted c (biteOf c s) new u else u := by
  simp only [takeSample, ChannelRec.sampled_accepted hears, Bool.true_and, beq_iff_eq]

/-- R13: bite after a new filtered value. -/
theorem nextBite_eq (c : StandCfg) (biteIn : Bool) (v : Int) :
    nextBite c biteIn v = if biteIn then decide (c.biteOff ≤ v) else decide (c.biteOn ≤ v) := by
  cases biteIn
  · rfl
  · simp [nextBite, ← decide_not]

/-! ### SET_CHANNEL -/

theorem answerSetChannel_range {f : ChannelFields} {s : State} (out : 13 < f.channel.toNat ∨ 1 < f.enable.toNat) :
    answerSetChannel f s = refuse .range s := by
  unfold answerSetChannel
  split
  · rename_i c enable named code
    rcases out with high | high
    · simp [Channel.ofNat?_eq_none high] at named
    · simp [yesNo?_eq_none high] at code
  · rfl

theorem answerSetChannel_named {f : ChannelFields} {s : State} {c : Channel} {on : Bool}
    (named : Channel.ofNat? f.channel.toNat = some c) (enable : yesNo? f.enable = some on) :
    answerSetChannel f s =
      let r := configured (s.chan.recs.get c) (fullRange c) on f
      { state := handState c (report (.channelState c r.st .enable) (setChannel c r s))
        status := okOr (channelAdjusted r f)
        content := configBytes r } := by
  simp [answerSetChannel, named, enable]

theorem yesNo?_eq_some {b : Byte} (code : b.toNat ≤ 1) : yesNo? b = some (decide (b.toNat = 1)) := by
  unfold yesNo?
  rcases (by omega : b.toNat = 0 ∨ b.toNat = 1) with zero | one
  · rw [zero]
    rfl
  · rw [one]
    rfl

theorem filterLength_mem (x : Nat) : filterLength x ∈ [1, 2, 4, 8, 16] := by
  rw [filterLength_eq]
  repeat' split
  all_goals simp

theorem filterLength_le (x : Nat) : filterLength x ≤ max 1 x := by
  rw [filterLength_eq]
  repeat' split
  all_goals omega

theorem filterLength_greatest (x : Nat) : ∀ m ∈ [1, 2, 4, 8, 16], m ≤ x → m ≤ filterLength x := by
  rw [filterLength_eq]
  simp only [List.mem_cons, List.not_mem_nil, or_false]
  intro m member below
  repeat' split
  all_goals omega

/-- R15, R16: the record SET_CHANNEL stores, item by item. -/
theorem configured_eq (r : ChannelRec) (range : Int × Int) (on : Bool) (f : ChannelFields) :
    configured r range on f =
      let lo := clamp range.1 range.2 f.lo.toInt
      let st := clampNat 1 1000 f.staleTime.toNat
      { enabled := on, zero := f.zero.toNat, span := max 1 f.span.toNat, lo := lo,
        hi := max lo (clamp range.1 range.2 f.hi.toInt), n := filterLength f.n.toNat, staleTime := st,
        st := if on then .settling else .off, filter := [], filtered := none, last := none, invalidCount := 0,
        rangeCount := 0, staleLeft := if on then some st else none } := by
  have larger (a b : Int) : (if b < a then a else b) = max a b := by
    split <;> omega
  simp [configured, ChannelRec.cleared, larger]

end Sys2Proof.Machine
namespace Sys2Proof
open Machine Safety

/-- Settles O14: a sample that is not accepted stores its record and hands on a change of state. -/
theorem samplesRejectedOrMissed : Obligations.SamplesRejectedOrMissed := by
  intro n raw valid s free
  refine ⟨fun high => exec_sample_none (Channel.ofNat?_eq_none high) raw valid s, fun c named => ?_⟩
  intro r
  refine ⟨fun deaf => ?_, fun hears => ⟨fun few => ?_, fun many => ?_⟩, fun hears running => ?_, fun stopped => ?_⟩
  · have same : r.sampled raw valid = r := ChannelRec.sampled_deaf deaf raw valid
    have notValid : r.st ≠ .valid := by rcases deaf with st | st <;> simp [st]
    rw [exec_sample named free, takeSample_stored (by simp [r, same, notValid] ) (by rw [same]), same, setChannel_get]
  · have new : r.sampled raw false = _ := (ChannelRec.sampled_rejected hears raw).trans (ChannelRec.reject_counted few)
    rw [exec_sample named free, takeSample_stored rfl (by rw [new]), new]
  · have new : r.sampled raw false = _ := (ChannelRec.sampled_rejected hears raw).trans (ChannelRec.reject_third many)
    have changed : r.st ≠ .fault := by rcases hears with st | st | st <;> simp [st]
    rw [exec_sample named free, takeSample_unaccepted rfl]
    dsimp only
    rw [new, if_neg changed]
    simp [sampleReport, changed, reportIf, r]
  · rw [exec_staleTimerExpiry free, staleExpires_running hears running]
  · rw [exec_staleTimerExpiry free, staleExpires_stopped stopped]

/-- Settles O15: the record item by item, then what follows it in R12's order. -/
theorem acceptedSampleUpdatesRecord : Obligations.AcceptedSampleUpdatesRecord := by
  intro n c raw s free named r
  refine ⟨fun hears => ?_, ?_, fun x d g scheduled notTail => ⟨fun under => ?_, fun under => ?_⟩,
    fun x => ⟨fun no => ?_, fun no => ?_⟩⟩
  · intro v value out kept list r' stored reported compared told handed
    have new : r.accept (engineering r raw) = r' := ChannelRec.accept_eq r v
    have last : r'.last = some value := rfl
    have fresh : r'.invalidCount = 0 := rfl
    have took := exec_sample named free raw true
    refine ⟨fun filters => ?_, _, took, ?_, fun d other => ?_⟩
    · obtain ⟨f, filtered⟩ := ChannelRec.accept_filtered filters (engineering r raw)
      rw [new] at filtered
      clear_value r' value
      have first : reportIf (sampleReport c r r') stored = reported := reportIf_accepted hears fresh stored
      have second : (if r'.st = .valid then compareOf c r' reported else reported) = compared := compareOf_eq c r' reported
      have third : (if r.st = r'.st then compared else handState c compared) = told := by
        simp only [told, eq_comm (a := r.st)]
      have fourth : handAccepted c (biteOf c s) r' told = handed := by
        simp only [handed, filtered]
        clear_value told
        refine (handAccepted_eq filtered last s told).trans ?_
        cases c <;> rfl
      rw [took, takeSample_accepted hears]
      dsimp only
      rw [show (s.chan.recs.get c).accept (engineering (s.chan.recs.get c) raw) = r' from new, first, second, third, fourth]
    · rw [takeSample_recs, PerChannel.get_set_self, ChannelRec.sampled_accepted hears, new]
    · rw [takeSample_recs, PerChannel.get_set_ne _ _ other]
  · intro told
    cases c <;> rfl
  · simp [entryValue, under, scheduled, notTail]
  · simp [exitValue, under, scheduled, notTail, PerStand.get]
  · unfold entryValue
    split
    · rename_i g under
      split
      · rename_i d scheduled
        exact if_pos ((no g under).resolve_right (by simp [scheduled]))
      · rfl
    · rfl
  · unfold exitValue
    split
    · rename_i g under
      split
      · rename_i d scheduled
        exact if_pos ((no g under).resolve_right (by simp [scheduled]))
      · rfl
    · rfl

/-- Settles O16: of a sample the comparators see the filtered value of a channel that is VALID. -/
theorem comparatorsFollowThresholds : Obligations.ComparatorsFollowThresholds := by
  intro k raw valid s t free run
  rw [exec_sample (Channel.ofNat?_num _) free, Host.Outcome.next.injEq] at run
  have record : t.chan.recs.get (.force k) = (s.chan.recs.get (.force k)).sampled raw valid := by
    rw [← run, takeSample_recs, PerChannel.get_set_self]
  have chan := takeSample_chan (.force k) raw valid s
  rw [run, ← record] at chan
  generalize t.chan.recs.get (.force k) = new at *
  refine ⟨fun v taken st filtered => ?_, fun unseen => ?_, fun j other => ?_⟩
  · simp only [taken, st, Bool.true_and, beq_self_eq_true, if_true, compareOf, filtered] at chan
    rw [chan]
    exact ⟨(PerStand.get_set_self ..).trans (nextBite_eq ..), PerStand.get_set_self ..⟩
  · have unaccepted : (valid && new.st == .valid) = false := by
      rcases unseen with rejected | st
      · simp [rejected]
      · simp [st]
    simp only [unaccepted, Bool.false_eq_true, if_false] at chan
    rw [chan]
    exact ⟨rfl, rfl⟩
  · dsimp only at chan
    rw [chan]
    split
    · unfold compareOf
      split
      · rename_i same _
        cases same
        exact ⟨PerStand.get_set_ne _ _ other, PerStand.get_set_ne _ _ other⟩
      · exact ⟨rfl, rfl⟩
    · exact ⟨rfl, rfl⟩

/-- Settles O17: every item of the record is replaced. -/
theorem setChannelReplacesConfiguration : Obligations.SetChannelReplacesConfiguration := by
  intro tag f s may
  refine ⟨fun out => request_replied may (answerSetChannel_range out), fun c named code => ?_⟩
  intro full on lo hi st
  refine ⟨filterLength f.n.toNat, filterLength_mem _, filterLength_le _, filterLength_greatest _, ?_⟩
  intro r same
  have enable : yesNo? f.enable = some on := yesNo?_eq_some code
  have range : fullRange c = full := by cases c <;> rfl
  have record : configured ((heard s).chan.recs.get c) full on f = r := configured_eq _ _ _ _
  have status : okOr (channelAdjusted r f) = if same then .ok else .adjusted := by
    rw [← okOr_not]
    congr 1
    have least : max 1 f.span.toNat = f.span.toNat ↔ 1 ≤ f.span.toNat := by omega
    rw [Bool.eq_iff_iff]
    simp only [channelAdjusted, same, r, Bool.or_eq_true, bne_iff_ne, ne_eq, least, Bool.not_eq_true', decide_eq_false_iff_not,
      Classical.not_and_iff_not_or_not, or_assoc]
  rw [← status]
  refine request_replied may ?_
  rw [answerSetChannel_named named enable, range]
  dsimp only
  rw [record]
  rfl

end Sys2Proof
end

section
/-! Counting and tracking, the operations by themselves: pulses (R21), closings (R41), debouncing (R28, R134), births (R30, R31), bites and
watches (R42 to R45) and SET_TRACKING (R47). -/
namespace Sys2Proof.Machine
open Sys2Proof.Safety

/-! ### Pulses -/

theorem exec_pulse {s : State} (free : s.pins.reset = false) (k : Span) : exec (.pulse k) s = .next (takePulse k s) :=
  congrArg Host.Outcome.next (unlessHeld_free free)

theorem exec_count {s : State} (free : s.pins.reset = false) (k : Span) : exec (.count k) s = .next (completeCount k s) :=
  congrArg Host.Outcome.next (unlessHeld_free free)

/-- R21: a completed count makes a length event of its whole millimetres, if there are any. -/
theorem completeCount_eq (k : Span) (s : State) :
    completeCount k s =
      let c := s.counters.get k
      let total := c.rest + c.perCount
      let counted : State := { s with counters := s.counters.set k { c with tally := 0, rest := total % 1000 } }
      if total < 1000 then counted else lengthEvent k (total / 1000) counted := by
  simp only [completeCount, Nat.div_eq_zero_iff_lt (show 0 < 1000 by decide)]

/-! ### Records and closings -/

theorem PerSpan.toList_eq_map_get {α : Type} (t : PerSpan α) : t.toList = Span.all.map t.get := rfl

theorem Tracking.segs_eq (t : Tracking) :
    t.segs = (Span.all.flatMap fun k => (t.queues.get k).map Queued.seg) ++ t.underExit.toList := by
  rw [segs, PerSpan.toList_eq_map_get, List.flatMap_map]

/-- Changing the record with an id in place changes it wherever it is in use. -/
theorem Tracking.segs_mapSeg (t : Tracking) (id : Nat) (f : Seg → Seg) :
    (t.mapSeg id f).segs = t.segs.map fun g => if g.id = id then f g else g := by
  simp [segs_eq, mapSeg, List.map_flatMap, Option.toList_map, Function.comp_def]

/-- R41: a closing that took a sample, of a point with a record under it. -/
theorem Tracking.closeAcc_taken {t : Tracking} {p : Point} {id : Nat} (under : t.under p = some id)
    (taken : 0 < (t.acc.get p).count) :
    t.closeAcc p =
      { t.mapSeg id fun g =>
          { g with dev := g.dev.set p (some (clamp (-5000) 5000 ((t.acc.get p).sum.tdiv (t.acc.get p).count))) } with
        acc := t.acc.set p { sum := 0, count := 0 } } := by
  simp [closeAcc, under, Acc.mean, Nat.pos_iff_ne_zero.1 taken, truncDiv, mapSeg]

/-- R41: a closing that took a sample writes the mean into the record under the point. -/
theorem Tracking.closeAcc_segs {t : Tracking} {p : Point} {id : Nat} (under : t.under p = some id)
    (taken : 0 < (t.acc.get p).count) :
    (t.closeAcc p).segs = t.segs.map fun g =>
      if g.id = id then
        { g with dev := g.dev.set p (some (clamp (-5000) 5000 ((t.acc.get p).sum.tdiv (t.acc.get p).count))) }
      else g := by
  rw [closeAcc_taken under taken, ← segs_mapSeg]
  rfl

/-- R41: a closing without a sample, or of a point with no record under it. -/
theorem Tracking.closeAcc_untaken {t : Tracking} {p : Point} (nothing : t.under p = none ∨ (t.acc.get p).count = 0) :
    t.closeAcc p = { t with acc := t.acc.set p { sum := 0, count := 0 } } := by
  rcases nothing with none | zero
  · simp [closeAcc, none]
  · simp [closeAcc, Acc.mean, zero]

/-- R30: a birth closes the HEAD or BODY under point 0. -/
theorem closeAtEntry_open {t : Tracking} {g : Seg} (under : t.segUnder .entry = some g) (notTail : g.kind ≠ .tail) :
    closeAtEntry t = (t.closeAcc .entry).mapSeg g.id fun r => { r with entryLen := some t.entryDist } := by
  have found : t.underEntry.bind t.find? = some g := under
  simp [closeAtEntry, found, notTail]

/-- The id of the record under a point is the id the point refers to. -/
theorem Tracking.under_of_segUnder {t : Tracking} {p : Point} {g : Seg} (under : t.segUnder p = some g) :
    t.under p = some g.id := by
  obtain ⟨id, refers, found⟩ := Option.bind_eq_some_iff.1 under
  rw [refers, Tracking.find?_id found]

/-- R30, R41: at a birth the record under point 0 is given its deviation, if a sample was taken, and its entry length. -/
theorem closeAtEntry_segs {t : Tracking} {g : Seg} (under : t.segUnder .entry = some g) (notTail : g.kind ≠ .tail) :
    (closeAtEntry t).segs = t.segs.map fun r =>
      if r.id = g.id then
        { r with
          dev := if 0 < (t.acc.get .entry).count then
              r.dev.set .entry (some (clamp (-5000) 5000 ((t.acc.get .entry).sum.tdiv (t.acc.get .entry).count)))
            else r.dev
          entryLen := some t.entryDist }
      else r := by
  rw [closeAtEntry_open under notTail, Tracking.segs_mapSeg]
  rcases Nat.eq_zero_or_pos (t.acc.get .entry).count with zero | taken
  · rw [Tracking.closeAcc_untaken (.inr zero)]
    simp only [zero, Nat.lt_irrefl, if_false]
    rfl
  · rw [Tracking.closeAcc_segs (Tracking.under_of_segUnder under) taken, List.map_map]
    congr 1
    funext r
    simp only [Function.comp_apply, if_pos taken]
    by_cases own : r.id = g.id <;> simp [own]

theorem accumulate_room {p : Point} {s : State} (room : (s.trk.acc.get p).count < 65535) (x : Int) :
    accumulate p x s =
      { s with trk := { s.trk with
        acc := s.trk.acc.set p { sum := (s.trk.acc.get p).sum + x, count := (s.trk.acc.get p).count + 1 } } } := by
  simp [accumulate, Acc.take, Config.countMax, room, setTrk]

theorem accumulate_full {p : Point} {s : State} (full : 65535 ≤ (s.trk.acc.get p).count) (x : Int) : accumulate p x s = s := by
  have kept : (s.trk.acc.get p).take x = s.trk.acc.get p := if_neg (Nat.not_lt.2 full)
  simp only [accumulate, kept, PerPoint.set_get, setTrk]

/-! ### Births -/

theorem closeAtEntry_segUnder (t : Tracking) :
    closeAtEntry t = match t.segUnder .entry with
      | some g =>
        if g.kind = .tail then { t with acc := t.acc.set .entry { sum := 0, count := 0 } }
        else (t.closeAcc .entry).mapSeg g.id fun r => { r with entryLen := some t.entryDist }
      | none => { t with acc := t.acc.set .entry { sum := 0, count := 0 } } := rfl

/-- R30: a birth for the newest coil, item by item. -/
theorem birth_eq {kind : Kind} {c : Coil} {s : State} (newest : s.sched.coils.getLast? = some c) :
    birth kind s =
      let born := mapCoil c.key (countBirth kind) (setTrk (bear kind c s.trk) s)
      if kind = .head then setupsAtBirth c.key born else born := by
  simp [birth, newest]

/-- R30: the tracking unit after a birth. -/
theorem bear_eq (kind : Kind) (c : Coil) (t : Tracking) :
    bear kind c t =
      { closeAtEntry t with
        nextId := (t.nextId + 1) % 4096
        queues := (closeAtEntry t).queues.set .entry
          ((closeAtEntry t).queues.get .entry ++ [{ seg := newSeg t.nextId kind c, dist := t.spanLen.entry }])
        underEntry := some t.nextId
        entryDist := 0
        poolFull := if kind = .head then t.poolFull else false } := by
  simp only [bear, closeAtEntry_nextId, closeAtEntry_spanLen, closeAtEntry_poolFull]
  rfl

/-- R31: the entry length while a coil is being taken in. -/
theorem entryLength_admitted {d : Nat} {s : State} (admitted : s.trk.entry = .admitted) :
    entryLength d s =
      let grown := setTrk { s.trk with entryDist := min 65535 (s.trk.entryDist + d) } s
      if min 65535 (s.trk.entryDist + d) < s.trk.segLen then grown
      else if 4 < s.trk.free then birth .body grown
      else if s.trk.poolFull then grown
      else edge .poolFull (setTrk { grown.trk with poolFull := true } s) := by
  simp only [entryLength, admitted]
  rfl

/-! ### SET_TRACKING -/

theorem Span.ofNat?_eq_none {n : Nat} (h : 6 < n) : Span.ofNat? n = none := by
  obtain ⟨n, rfl⟩ := Nat.exists_eq_add_of_le' h
  rfl

theorem prescalerFor_mem (x : Nat) : prescalerFor x ∈ [1, 2, 4, 8, 16, 32, 64, 128] := by
  rw [prescalerFor_eq]
  repeat' split
  all_goals simp

theorem prescalerFor_le (x : Nat) : prescalerFor x ≤ max 1 x := by
  rw [prescalerFor_eq]
  repeat' split
  all_goals omega

theorem prescalerFor_greatest (x : Nat) : ∀ m ∈ [1, 2, 4, 8, 16, 32, 64, 128], m ≤ x → m ≤ prescalerFor x := by
  rw [prescalerFor_eq]
  simp only [List.mem_cons, List.not_mem_nil, or_false]
  intro m member below
  repeat' split
  all_goals omega

/-! ### Bites and watches -/

section
variable {k : Stand} {p : Seg → Bool} {w : Nat} {s : State}

/-- R43, R44: the oldest record that is sought is forced to arrive within its window, and is lost beyond it. -/
theorem forceOrLose_found {ahead behind : List Queued} {q : Queued}
    (queue : s.trk.queues.get k.spanBefore = ahead ++ q :: behind) (before : ∀ a ∈ ahead, p a.seg = false)
    (found : p q.seg = true) :
    forceOrLose k p w s =
      if q.dist ≤ w then forceArrivals k.spanBefore (ahead.length + 1) s else edge .stripLost s := by
  simp [forceOrLose, queue, findQueued_eq_some before found]

theorem forceOrLose_absent (absent : ∀ a ∈ s.trk.queues.get k.spanBefore, p a.seg = false) :
    forceOrLose k p w s = edge .stripLost s := by
  simp [forceOrLose, findQueued_eq_none absent]

/-- R43: a bite IN with the watch IDLE, at a stand without a coil, looks for the oldest HEAD. -/
theorem biteInAt_unexpected (watch : s.trk.headWatch.get k = none) (noCoil : s.coilAt (.stand k) = none) :
    biteInAt k s = forceOrLose k (fun g => g.kind == .head) s.trk.headWindow s := by
  simp [biteInAt, watch, noCoil]

/-- R44: a bite OUT at a stand with a coil looks for the coil's TAIL. -/
theorem biteOutAt_coil {c : Coil} (coil : s.coilAt (.stand k) = some c) :
    biteOutAt k s =
      forceOrLose k (fun g => g.kind == .tail && g.coilKey == c.key) s.trk.tailWindow
        { s with trk := { s.trk with tailWatch := s.trk.tailWatch.set k none } } := by
  have same : (setTrk { s.trk with tailWatch := s.trk.tailWatch.set k none } s).coilAt (.stand k) = some c := coil
  simp only [biteOutAt, same]
  rfl

theorem biteOutAt_empty (noCoil : s.coilAt (.stand k) = none) :
    biteOutAt k s = { s with trk := { s.trk with tailWatch := s.trk.tailWatch.set k none } } := by
  have same : (setTrk { s.trk with tailWatch := s.trk.tailWatch.set k none } s).coilAt (.stand k) = none := noCoil
  simp only [biteOutAt, same]
  rfl

theorem exec_headWatchExpiry (free : s.pins.reset = false) :
    exec (.headWatchExpiry k) s = .next (if (s.trk.headWatch.get k).isSome then headWatchRunsOut k s else s) :=
  congrArg Host.Outcome.next (unlessHeld_free free)

theorem exec_tailWatchExpiry (free : s.pins.reset = false) :
    exec (.tailWatchExpiry k) s = .next (if (s.trk.tailWatch.get k).isSome then tailWatchRunsOut k s else s) :=
  congrArg Host.Outcome.next (unlessHeld_free free)
end

end Sys2Proof.Machine
namespace Sys2Proof
open Machine Safety

/-- Settles O18: a count's total is at least a millimetre exactly if its quotient is not 0. -/
theorem pulsesBecomeMillimetres : Obligations.PulsesBecomeMillimetres := by
  intro k s free c total counted after
  have done : completeCount k s = after := completeCount_eq k s
  rw [exec_pulse free, exec_count free, done]
  refine ⟨fun below => ?_, fun reached => ?_, rfl⟩
  · rw [takePulse, if_pos below]
  · rw [takePulse, if_neg (Nat.not_lt.2 reached), done]

/-- Settles O22: a timer that starts or stops with its input's level. -/
theorem rawInputChangesStartDebounce : Obligations.RawInputChangesStartDebounce := by
  intro b e s free
  refine ⟨fun same => ?_, fun changed => ?_, fun same => ?_, fun changed => ?_, fun stopped => ?_, fun running => ?_⟩
  · simp [exec, execStripPresentChange, same]
  · simp [exec, execStripPresentChange, changed, unlessHeld, free, stripRawChanged, setTrk]
  · simp [exec, execEstopInputChange, same]
  · simp [exec, execEstopInputChange, changed, unlessHeld, free, estopRawChanged, setEStop]
  · simp [exec, execEstopDebounceExpiry, unlessHeld_free free, estopDebounced, stopped]
  · simp [exec, execEstopDebounceExpiry, unlessHeld_free free, estopDebounced, running, setEStop]

/-- Settles O26: the oldest record of the kind sought is within its window, beyond it, or not there. -/
theorem bitesAndWatchesFindStrip : Obligations.BitesAndWatchesFindStrip := by
  intro k s idle
  refine ⟨fun running => ?_, fun watch coil => ?_, fun watch noCoil => ⟨fun ahead q behind queue before head => ?_, fun absent => ?_⟩,
    ⟨biteOutAt_empty, fun c coil => ⟨fun ahead q behind queue before tail own => ?_, fun absent => ?_⟩⟩, fun free => ?_⟩
  · simp [biteInAt, Option.isSome_iff_ne_none, running, setTrk]
  · simp [biteInAt, watch, Option.isSome_iff_ne_none, coil]
  · rw [biteInAt_unexpected watch noCoil,
      forceOrLose_found queue (fun a member => by simpa using before a member) (by simpa using head)]
    exact ⟨fun near => if_pos near, fun far => if_neg (Int.not_le.2 far)⟩
  · rw [biteInAt_unexpected watch noCoil, forceOrLose_absent fun a member => by simpa using absent a member]
  · rw [biteOutAt_coil coil, forceOrLose_found (s := idle) queue (fun a member => by simpa using before a member)
      (by simp [tail, own])]
    exact ⟨fun near => if_pos near, fun far => if_neg (Int.not_le.2 far)⟩
  · rw [biteOutAt_coil coil, forceOrLose_absent (s := idle) fun a member => by simpa using absent a member]
  · rw [exec_headWatchExpiry free, exec_tailWatchExpiry free]
    refine ⟨fun watch => ?_, fun watch => ?_, fun watch => ?_, fun watch => ?_⟩
    · simp [watch]
    · rw [if_pos (Option.isSome_iff_ne_none.2 watch)]
      rfl
    · simp [watch]
    · rw [if_pos (Option.isSome_iff_ne_none.2 watch)]
      rfl

/-- Settles O21: a closing changes the record under the point, wherever it is in use. -/
theorem closingWritesMeanDeviation : Obligations.ClosingWritesMeanDeviation := by
  intro p t a mean
  refine ⟨by rw [Tracking.closeAcc_eq], fun id under taken => ?_, fun nothing => ?_, ?_, ?_⟩
  · exact Tracking.closeAcc_segs under taken
  · rw [Tracking.closeAcc_untaken nothing]
    rfl
  · rintro g rfl under notTail
    exact closeAtEntry_segs under notTail
  · rintro x s rfl
    exact ⟨fun room => accumulate_room room x, fun full => accumulate_full full x⟩

/-- Settles O25: the entry length by the free count, and a birth's record, coil and announcement. -/
theorem bodyBirthsNeedFreeRecords : Obligations.BodyBirthsNeedFreeRecords := by
  refine ⟨fun d s => ?_, fun kind c s newest => ?_⟩
  · intro dist grown
    refine ⟨fun other => if_pos other, fun admitted => ?_⟩
    rw [entryLength_admitted admitted]
    refine ⟨fun short => if_pos short, fun reached room => ?_, fun reached few full => ?_, fun reached few notFull => ?_⟩
    · exact (if_neg (Nat.not_lt.2 reached)).trans (if_pos room)
    · exact (if_neg (Nat.not_lt.2 reached)).trans ((if_neg (Nat.not_lt.2 few)).trans (if_pos full))
    · exact (if_neg (Nat.not_lt.2 reached)).trans ((if_neg (Nat.not_lt.2 few)).trans (if_neg (by simp [notFull])))
  · intro cleared closed new counted born
    refine ⟨closeAtEntry_segUnder s.trk, ?_⟩
    have count : (fun e : Coil => if e.key = c.key then countBirth kind e else e) = counted := by
      funext e
      cases kind <;> rfl
    have place : mapCoil c.key (countBirth kind) (setTrk (bear kind c s.trk) s) = born := by
      rw [bear_eq, mapCoil, count]
      rfl
    rw [birth_eq newest, place]

/-- Settles O28: the span, the pool and the seven values. -/
theorem setTrackingNeedsEmptyPool : Obligations.SetTrackingNeedsEmptyPool := by
  intro tag f s may
  have trk : (heard s).trk = s.trk := heard_trk s
  refine ⟨fun high => request_replied may ?_, fun k named => ⟨fun used => request_replied may ?_, fun unused => ?_⟩⟩
  · simp [answerSetTracking, Span.ofNat?_eq_none high, refuse]
  · simp [answerSetTracking, named, used, refuse]
  · refine ⟨prescalerFor f.prescaler.toNat, prescalerFor_mem _, prescalerFor_le _, prescalerFor_greatest _, ?_⟩
    intro l u g hw tw d same
    have status : okOr (trackingValues f != [f.length.toNat, f.prescaler.toNat, f.perCount.toNat, f.segLen.toNat,
        f.headWindow.toNat, f.tailWindow.toNat, f.debounce.toNat]) = if same then .ok else .adjusted := by
      rw [← okOr_not]
      congr 1
      rw [Bool.eq_iff_iff]
      simp only [trackingValues, same, bne_iff_ne, ne_eq, List.cons.injEq, and_true, Bool.not_eq_true', decide_eq_false_iff_not,
        l, u, g, hw, tw, d]
    rw [← status]
    refine request_replied may ?_
    simp only [answerSetTracking, named, trk, unused, ne_eq, not_true_eq_false, if_false, storeTracking, heard_counters]
    rfl

end Sys2Proof
end

section
/-! Length events (R33) and what they drive. -/
namespace Sys2Proof.Machine
open Sys2Proof.Safety

/-! ### The watches a length event drives -/

/-- R33, step 1: the head watch at the end of a span. -/
def headDriven (k : Span) (d : Nat) (s : State) : State :=
  match k.downstream with
  | .stand j => reduceHeadWatch j d s
  | _ => s

/-- R33, step 2: the tail watch at the start of a span. -/
def tailDriven (k : Span) (d : Nat) (s : State) : State :=
  match k with
  | .after j => reduceTailWatch j d s
  | .entry => s

theorem reduceHeadWatch_eq (j : Stand) (d : Nat) (s : State) :
    reduceHeadWatch j d s =
      match s.trk.headWatch.get j with
      | some r =>
        if r ≤ d then edge .stripLost { s with trk := { s.trk with headWatch := s.trk.headWatch.set j none } }
        else { s with trk := { s.trk with headWatch := s.trk.headWatch.set j (some (r - d)) } }
      | none => s := by
  unfold reduceHeadWatch
  cases watch : s.trk.headWatch.get j <;> rfl

theorem reduceTailWatch_eq (j : Stand) (d : Nat) (s : State) :
    reduceTailWatch j d s =
      match s.trk.tailWatch.get j with
      | some r =>
        if r ≤ d then edge .stripLost { s with trk := { s.trk with tailWatch := s.trk.tailWatch.set j none } }
        else { s with trk := { s.trk with tailWatch := s.trk.tailWatch.set j (some (r - d)) } }
      | none => s := by
  unfold reduceTailWatch
  cases watch : s.trk.tailWatch.get j <;> rfl

/-- R33: a length event, step by step. -/
theorem lengthEvent_eq (k : Span) (d : Nat) (s : State) :
    lengthEvent k d s =
      let nearer := reduceDistances k d (tailDriven k d (headDriven k d s))
      let arrived := arriveReached k (nearer.trk.queues.get k).length nearer
      if k = .entry then entryLength d arrived else arrived := by
  cases k with
  | entry => rfl
  | after j => cases j <;> rfl

/-- A watch that is not used up runs on. -/
theorem headDriven_quiet {k : Span} {d : Nat} {s : State}
    (far : ∀ j r, k.downstream = .stand j → s.trk.headWatch.get j = some r → d < r) :
    ∃ h, headDriven k d s = { s with trk := { s.trk with headWatch := h } } ∧
      ∀ j, h.get j = if k.downstream = .stand j then (s.trk.headWatch.get j).map (· - d) else s.trk.headWatch.get j := by
  unfold headDriven
  split
  · rename_i i downstream
    simp only [downstream, Point.stand.injEq] at far ⊢
    cases watch : s.trk.headWatch.get i with
    | none =>
      refine ⟨s.trk.headWatch, by simp [reduceHeadWatch, watch], fun j => ?_⟩
      split
      · simp_all
      · rfl
    | some r =>
      refine ⟨s.trk.headWatch.set i (some (r - d)), ?_, fun j => ?_⟩
      · simp [reduceHeadWatch, watch, Nat.not_le.2 (far i r rfl watch), setTrk]
      · rw [PerStand.get_set]
        by_cases same : j = i
        · simp [same, watch]
        · simp [same, Ne.symm same]
  · rename_i other
    refine ⟨s.trk.headWatch, rfl, fun j => ?_⟩
    rw [if_neg (other j)]

theorem tailDriven_quiet {k : Span} {d : Nat} {s : State}
    (far : ∀ j r, k = .after j → s.trk.tailWatch.get j = some r → d < r) :
    ∃ h, tailDriven k d s = { s with trk := { s.trk with tailWatch := h } } ∧
      ∀ j, h.get j = if k = .after j then (s.trk.tailWatch.get j).map (· - d) else s.trk.tailWatch.get j := by
  unfold tailDriven
  split
  · rename_i i
    simp only [Span.after.injEq] at far ⊢
    cases watch : s.trk.tailWatch.get i with
    | none =>
      refine ⟨s.trk.tailWatch, by simp [reduceTailWatch, watch], fun j => ?_⟩
      split
      · simp_all
      · rfl
    | some r =>
      refine ⟨s.trk.tailWatch.set i (some (r - d)), ?_, fun j => ?_⟩
      · simp [reduceTailWatch, watch, Nat.not_le.2 (far i r rfl watch), setTrk]
      · rw [PerStand.get_set]
        by_cases same : j = i
        · simp [same, watch]
        · simp [same, Ne.symm same]
  · exact ⟨s.trk.tailWatch, rfl, fun j => by simp⟩

/-! ### Arrivals from a span's front -/

section
variable {k : Span} {s : State} {q : Queued} {rest : List Queued}

theorem popFront_eq (queue : s.trk.queues.get k = q :: rest) :
    popFront k s = { s with trk := { s.trk with queues := s.trk.queues.set k rest } } := by
  simp [popFront, queue, setTrk]

theorem arrive_eq (k : Span) (g : Seg) (past : Int) (byLength : Bool) (s : State) :
    arrive k g past byLength s =
      match k.downstream with
      | .stand j => arriveAtStand j g past byLength s
      | _ => arriveAtExit g s := by
  unfold arrive
  split <;> simp_all

theorem arriveReached_reached (queue : s.trk.queues.get k = q :: rest) (reached : q.dist ≤ 0) (n : Nat) :
    arriveReached k (n + 1) s = arriveReached k n (arrive k q.seg (-q.dist) true (popFront k s)) := by
  simp [arriveReached, queue, reached]

theorem arriveReached_front (queue : s.trk.queues.get k = q :: rest) (far : 0 < q.dist) (n : Nat) :
    arriveReached k n s = s := by
  cases n with
  | zero => rfl
  | succ n => simp [arriveReached, queue, Int.not_le.2 far]

theorem arriveReached_empty (queue : s.trk.queues.get k = []) (n : Nat) : arriveReached k n s = s := by
  cases n with
  | zero => rfl
  | succ n => simp [arriveReached, queue]

theorem forceArrivals_front (queue : s.trk.queues.get k = q :: rest) (n : Nat) :
    forceArrivals k (n + 1) s = forceArrivals k n (arrive k q.seg 0 false (popFront k s)) := by
  simp [forceArrivals, queue]

theorem forceArrivals_empty (queue : s.trk.queues.get k = []) (n : Nat) : forceArrivals k n s = s := by
  cases n with
  | zero => rfl
  | succ n => simp [forceArrivals, queue]

theorem Span.ne_after_of_downstream {j : Stand} (downstream : k.downstream = .stand j) : k ≠ .after j := by
  rintro rfl
  cases j <;> simp [Span.downstream, Stand.next?] at downstream

/-- R34, R36: an arrival leaves the records behind it in its span. -/
theorem arrive_dists (queue : s.trk.queues.get k = q :: rest) (past : Int) (byLength : Bool) :
    ((arrive k q.seg past byLength (popFront k s)).trk.queues.get k).map Queued.dist = rest.map Queued.dist := by
  rw [← Tracking.shape_dists, arrive_eq]
  have front : (popFront k s).trk.shape.dists.get k = rest.map Queued.dist := by
    rw [shape_popFront queue]
    exact PerSpan.get_set_self _ _ _
  rw [← front]
  split
  · rename_i j downstream
    have outline := congrArg Outline.shape (outline_arriveAtStand j q.seg past byLength (popFront k s))
    rw [show (arriveAtStand j q.seg past byLength (popFront k s)).trk.shape = _ from outline]
    show (enterSpan j q.seg past (popFront k s).trk).shape.dists.get k = _
    rw [shape_enterSpan]
    exact PerSpan.get_set_ne _ _ (Span.ne_after_of_downstream downstream)
  · obtain ⟨kind, keys, -, outline⟩ := outline_arriveAtExit q.seg (popFront k s)
    rw [show (arriveAtExit q.seg (popFront k s)).trk.shape = _ from congrArg Outline.shape outline]
end

/-- R33, step 4: as many arrivals as the span has records leave none at the front that has reached its end. -/
theorem arriveReached_head {k : Span} {n : Nat} {s : State} (enough : (s.trk.queues.get k).length ≤ n) {q : Queued}
    (front : ((arriveReached k n s).trk.queues.get k).head? = some q) : 0 < q.dist := by
  induction n generalizing s with
  | zero =>
    rw [arriveReached, List.length_eq_zero_iff.1 (Nat.le_zero.1 enough)] at front
    cases front
  | succ n ih =>
    cases queue : s.trk.queues.get k with
    | nil =>
      rw [arriveReached_empty queue, queue] at front
      cases front
    | cons a rest =>
      by_cases reached : a.dist ≤ 0
      · rw [arriveReached_reached queue reached] at front
        refine ih ?_ front
        have kept := congrArg List.length (arrive_dists queue (-a.dist) true)
        rw [queue] at enough
        simp only [List.length_map, List.length_cons] at kept enough
        omega
      · rw [arriveReached_front queue (Int.not_le.1 reached), queue] at front
        cases front
        exact Int.not_le.1 reached

end Sys2Proof.Machine
namespace Sys2Proof
open Machine Safety

/-- Settles O19: the steps of a length event, each with its rule. -/
theorem lengthEventDrivesWatchesAndArrivals : Obligations.LengthEventDrivesWatchesAndArrivals := by
  intro k d s
  refine ⟨?_, fun n q rest queue => ?_, fun n queue => ⟨arriveReached_empty queue n, forceArrivals_empty queue n⟩,
    fun q front => arriveReached_head (Nat.le_refl _) front, fun far headFar tailFar idle => ?_⟩
  · intro afterHead afterTail nearer arrived
    have first : headDriven k d s = afterHead := by
      simp only [afterHead, headDriven, reduceHeadWatch_eq] <;> rfl
    have second : tailDriven k d afterHead = afterTail := by
      simp only [afterTail, tailDriven, reduceTailWatch_eq] <;> rfl
    rw [lengthEvent_eq, first, second]
    rfl
  · intro without arrives
    have popped : popFront k s = without := popFront_eq queue
    have arrival (past : Int) (byLength : Bool) : arrive k q.seg past byLength (popFront k s) = arrives past byLength := by
      rw [arrive_eq, popped] <;> rfl
    refine ⟨fun reached => ?_, fun farther => arriveReached_front queue farther n, ?_, rfl⟩
    · rw [arriveReached_reached queue reached, arrival]
    · rw [forceArrivals_front queue, arrival]
  · obtain ⟨h, head, heads⟩ := headDriven_quiet headFar
    obtain ⟨w, tail, tails⟩ := tailDriven_quiet (s := { s with trk := { s.trk with headWatch := h } }) tailFar
    rw [lengthEvent_eq, head, tail]
    generalize nearer : reduceDistances k d { s with trk := { s.trk with headWatch := h, tailWatch := w } } = u
    have queue : u.trk.queues.get k = (s.trk.queues.get k).map fun q => { q with dist := q.dist - d } := by
      rw [← nearer]
      exact PerSpan.get_set_self _ _ _
    have still : arriveReached k (u.trk.queues.get k).length u = u := by
      cases queued : s.trk.queues.get k with
      | nil => exact arriveReached_empty (by rw [queue, queued]; rfl) _
      | cons q rest =>
        have front := far q (by simp [queued])
        exact arriveReached_front (q := { q with dist := q.dist - d }) (by rw [queue, queued]; rfl) (by show 0 < q.dist - d; omega) _
    have quiet : (if k = .entry then entryLength d u else u) = u := by
      split
      · rename_i entry
        exact if_pos (by rw [← nearer]; exact idle entry)
      · rfl
    refine ⟨u.trk, ?_, ?_, fun j => ?_, fun j => ?_, fun j => ?_⟩
    · refine Eq.trans (b := u) ?_ (by rw [← nearer]; rfl)
      show (if k = .entry then entryLength d (arriveReached k (u.trk.queues.get k).length u)
        else arriveReached k (u.trk.queues.get k).length u) = u
      rw [still, quiet]
    · rw [← nearer]
      rfl
    · by_cases same : j = k
      · rw [if_pos same, same, queue]
      · rw [if_neg same, ← nearer]
        exact PerSpan.get_set_ne _ _ same
    · rw [← nearer]
      exact heads j
    · rw [← nearer]
      exact tails j

end Sys2Proof
end

section
/-! Arrivals at a stand (R34, R35). What records take in place — deviations, entry lengths and marks — is left out of the tracking unit's
`layout`, which most operations keep. -/
namespace Sys2Proof.Machine
open Sys2Proof.Safety

/-! ### The tracking unit's layout -/

/-- A segment record without what it takes after its birth. -/
def Seg.named (g : Seg) : Seg := { g with entryLen := none, dev := .fill none, offGauge := false, lockonAt := .fill false }

def Queued.named (q : Queued) : Queued := { q with seg := q.seg.named }

/-- The tracking unit with its records as they were born. -/
def Tracking.layout (t : Tracking) : Tracking :=
  { t with queues := .ofFn fun k => (t.queues.get k).map Queued.named, underExit := t.underExit.map Seg.named }

theorem Tracking.layout_queue (t : Tracking) (k : Span) : t.layout.queues.get k = (t.queues.get k).map Queued.named := by
  simp [layout]

theorem Tracking.layout_eq {t u : Tracking} (rest : t = { u with queues := t.queues, underExit := t.underExit })
    (queues : ∀ k, (t.queues.get k).map Queued.named = (u.queues.get k).map Queued.named)
    (exit : t.underExit.map Seg.named = u.underExit.map Seg.named) : t.layout = u.layout := by
  rw [rest]
  simp only [layout, queues, exit]

theorem Tracking.layout_mapSeg (t : Tracking) (id : Nat) {f : Seg → Seg} (named : ∀ g, (f g).named = g.named) :
    (t.mapSeg id f).layout = t.layout := by
  have changed (g : Seg) : (if g.id = id then f g else g).named = g.named := by
    split
    · exact named g
    · rfl
  refine layout_eq rfl (fun k => ?_) ?_
  · simp [mapSeg, Queued.named, changed, Function.comp_def]
  · simp [mapSeg, changed, Function.comp_def]

theorem Tracking.layout_of_plain {t u : Tracking} (same : t.plain = u.plain) : t.layout = u.layout := by
  have plain (v : Tracking) : v.plain.layout = v.layout := by
    refine layout_eq rfl (fun k => ?_) ?_
    · simp [Tracking.plain, Queued.named, Queued.plain, Seg.named, Seg.plain, Function.comp_def]
    · simp only [Tracking.plain, Option.map_map]
      rfl
  rw [← plain t, same, plain]

theorem Tracking.layout_setQueue (t : Tracking) (k : Span) (l : List Queued) :
    { t with queues := t.queues.set k l }.layout = { t.layout with queues := t.layout.queues.set k (l.map Queued.named) } := by
  simp only [layout, Tracking.mk.injEq, and_true, true_and]
  exact PerSpan.eq_of_get fun j => by
    simp only [PerSpan.get_ofFn, PerSpan.get_set]
    split <;> rfl

/-- Closing an accumulator clears it and leaves the layout. -/
theorem Tracking.layout_closeAcc (t : Tracking) (p : Point) :
    (t.closeAcc p).layout = { t.layout with acc := t.acc.set p { sum := 0, count := 0 } } := by
  have closed (u : Tracking) (same : u.layout = t.layout) :
      { u with acc := u.acc.set p { sum := 0, count := 0 } }.layout = { t.layout with acc := t.acc.set p { sum := 0, count := 0 } } := by
    have acc : u.acc = t.acc := by
      have e := congrArg Tracking.acc same
      exact e
    rw [← same, acc]
    rfl
  unfold closeAcc
  refine closed _ ?_
  split
  · exact layout_mapSeg _ _ fun g => rfl
  · rfl

theorem Tracking.closeAcc_underStand (t : Tracking) (p : Point) : (t.closeAcc p).underStand = t.underStand := by
  rw [closeAcc_eq]

/-- R30: a birth's closing clears point 0's accumulator and leaves the layout. -/
theorem layout_closeAtEntry (t : Tracking) :
    (closeAtEntry t).layout = { t.layout with acc := t.acc.set .entry { sum := 0, count := 0 } } := by
  unfold closeAtEntry
  split
  · split
    · rfl
    · rw [Tracking.layout_mapSeg _ _ (by intro _; rfl), Tracking.layout_closeAcc]
  · rfl

section
variable (k : Stand) (s : State)

theorem layout_of_calm {s t : State} (calm : t.calm = s.calm) : t.trk.layout = s.trk.layout :=
  Tracking.layout_of_plain (trk_of_calm calm)

theorem layout_arrivalAtGauge (g : Seg) : (arrivalAtGauge k g s).trk.layout = s.trk.layout := by
  unfold arrivalAtGauge headAtGauge bodyAtGauge tailAtGauge
  simp only [clearReference_eq]
  split
  · rfl
  · split
    · exact Tracking.layout_mapSeg _ _ fun g => rfl
    · rfl
  · rfl

theorem layout_setupAt (key : Nat) (sch : Schedule) : (setupAt key sch s k).trk.layout = s.trk.layout := by
  unfold setupAt
  rw [layout_of_calm (calm_issueSetup k _ _)]
  rfl

theorem layout_setupAtTail (key : Nat) : (setupAtTail k key s).trk.layout = s.trk.layout := by
  unfold setupAtTail
  split
  · split
    · exact layout_setupAt k s _ _
    · rfl
  · rfl

theorem layout_setupsAtBirth (key : Nat) : (setupsAtBirth key s).trk.layout = s.trk.layout := by
  unfold setupsAtBirth
  dsimp only
  split
  · rfl
  · rename_i sch scheduled
    clear scheduled
    generalize Stand.all.filter _ = l
    induction l generalizing s with
    | nil => rfl
    | cons j l ih => exact (ih (setupAt key sch s j)).trans (layout_setupAt j s key sch)

theorem layout_derivedConditions : (derivedConditions s).trk.layout = s.trk.layout := layout_of_calm (calm_derivedConditions s)
end

/-! ### The arrival's steps -/

/-- R35, step 3: the coils' progress at a stand. -/
theorem markArrival_eq (k : Stand) (g : Seg) (s : State) :
    markArrival k g s = { s with sched := { s.sched with coils := s.sched.coils.map fun c =>
      if c.key = g.coilKey then
        match g.kind with
        | .head => { c with head := c.head.set (.stand k) true }
        | .tail => { c with tail := c.tail.set (.stand k) true }
        | .body => c
      else c } } := by
  unfold markArrival
  cases g.kind
  · rfl
  · simp
  · rfl

/-- R42, R45: the watches after an arrival by length. -/
theorem startWatches_eq (k : Stand) (kind : Kind) (byLength : Bool) (s : State) :
    (if byLength then startWatches k kind s else s) =
      match byLength, kind, s.chan.biteIn.get k with
      | true, .head, false => setTrk { s.trk with headWatch := s.trk.headWatch.set k (some s.trk.headWindow) } s
      | true, .head, true =>
        if (s.trk.tailWatch.get k).isSome then
          edge .stripLost (setTrk { s.trk with tailWatch := s.trk.tailWatch.set k none } s)
        else s
      | true, .tail, true => setTrk { s.trk with tailWatch := s.trk.tailWatch.set k (some s.trk.tailWindow) } s
      | _, _, _ => s := by
  unfold startWatches
  cases byLength <;> cases kind <;> cases s.chan.biteIn.get k <;> rfl

/-- R35: after the watches gauge control is told, and after a TAIL the schedule store; the layout stays. -/
def announced (k : Stand) (g : Seg) (s : State) : State :=
  let gauged := arrivalAtGauge k ((s.trk.find? g.id).getD g) s
  if g.kind = .tail then setupAtTail k g.coilKey gauged else gauged

theorem layout_announced (k : Stand) (g : Seg) (s : State) : (announced k g s).trk.layout = s.trk.layout := by
  unfold announced
  dsimp only
  split
  · rw [layout_setupAtTail, layout_arrivalAtGauge]
  · rw [layout_arrivalAtGauge]

/-- R34: the distance a record enters a span with. -/
theorem enterDist_eq (t : Tracking) (k : Stand) (past : Int) :
    enterDist t k past =
      let own : Int := max ((t.spanLen.get (.after k) : Int) - past) 0
      match ((t.queues.get (.after k)).map Queued.dist).getLast? with
      | some d => max own d
      | none => own := by
  simp only [enterDist, List.getLast?_map]
  show _ = match ((t.queues.after.get k).getLast?.map Queued.dist) with
    | some d => max _ d
    | none => _
  cases (t.queues.after.get k).getLast? <;> rfl

end Sys2Proof.Machine
namespace Sys2Proof
open Machine Safety

/-- Settles O20: each step of the arrival, and what the later ones leave of the spans, the points and the accumulators. -/
theorem arrivalEntersNextSpan : Obligations.ArrivalEntersNextSpan := by
  intro k g past byLength s places own dist closed progress marked entered watched t
  have closed_eq : (enterSpan k g past s.trk).closeAcc (.stand k) = closed := by
    rw [enterSpan, enterDist_eq]
    rfl
  have under : closed.underStand = s.trk.underStand := Tracking.closeAcc_underStand _ _
  have entered_eq : (let u := markArrival k g (setTrk { closed with underStand := closed.underStand.set k (some g.id) } s)
      if u.blocked k then markOffGauge g.id u else u) = entered := by
    rw [markArrival_eq, under]
    by_cases blocked : s.blocked k = true
    · refine (if_pos blocked).trans ?_
      simp only [entered, marked, if_pos blocked]
      rfl
    · refine (if_neg blocked).trans ?_
      simp only [entered, marked, if_neg blocked]
      rfl
  have marked_layout : marked.layout = closed.layout := by
    simp only [marked]
    split
    · exact Tracking.layout_mapSeg _ _ fun g => rfl
    · rfl
  have closed_layout : closed.layout = _ := Tracking.layout_closeAcc _ _
  have entered_layout : entered.trk.layout =
      { s.trk.layout with
        queues := s.trk.layout.queues.set (.after k)
          (s.trk.layout.queues.get (.after k) ++ [Queued.named { seg := g, dist := dist }])
        acc := s.trk.acc.set (.stand k) { sum := 0, count := 0 }
        underStand := s.trk.underStand.set k (some g.id) } := by
    show { marked.layout with underStand := s.trk.underStand.set k (some g.id) } = _
    rw [marked_layout, closed_layout, Tracking.layout_setQueue, List.map_append, Tracking.layout_queue]
    rfl
  have heads : entered.trk.headWatch = s.trk.headWatch := by have e := congrArg Tracking.headWatch entered_layout; exact e
  have tails : entered.trk.tailWatch = s.trk.tailWatch := by have e := congrArg Tracking.tailWatch entered_layout; exact e
  have headWindow : entered.trk.headWindow = s.trk.headWindow := by
    have e := congrArg Tracking.headWindow entered_layout; exact e
  have tailWindow : entered.trk.tailWindow = s.trk.tailWindow := by
    have e := congrArg Tracking.tailWindow entered_layout; exact e
  have watched_eq : (if byLength then startWatches k g.kind entered else entered) = watched := by
    rw [startWatches_eq, heads, tails, headWindow, tailWindow]
    rfl
  have watch : ∃ h w, watched.trk.layout = { entered.trk.layout with headWatch := h, tailWatch := w } := by
    simp only [watched]
    split
    · exact ⟨_, _, rfl⟩
    · split
      · exact ⟨_, _, layout_of_calm (calm_edge _ _)⟩
      · exact ⟨_, _, rfl⟩
    · exact ⟨_, _, rfl⟩
    · exact ⟨_, _, rfl⟩
  have run : t = announced k g watched := by
    show arriveAtStand k g past byLength s = _
    unfold arriveAtStand
    dsimp only at entered_eq ⊢
    rw [closed_eq, entered_eq, watched_eq]
    rfl
  obtain ⟨h, w, watch⟩ := watch
  have layout : t.trk.layout = { entered.trk.layout with headWatch := h, tailWatch := w } := by
    rw [run, layout_announced, watch]
  rw [entered_layout] at layout
  have places_layout (u : State) (j : Span) : places u j = (u.trk.layout.queues.get j).map fun q => (q.seg.id, q.dist) := by
    rw [Tracking.layout_queue, List.map_map]
    rfl
  have underStand : t.trk.underStand = s.trk.underStand.set k (some g.id) := by
    have e := congrArg Tracking.underStand layout
    exact e
  have acc : t.trk.acc = s.trk.acc.set (.stand k) { sum := 0, count := 0 } := by
    have e := congrArg Tracking.acc layout
    exact e
  refine ⟨?_, fun j other => ?_, ?_, fun j other => ?_, ?_, run⟩
  · rw [places_layout, places_layout, layout, PerSpan.get_set_self, List.map_append]
    rfl
  · rw [places_layout, places_layout, layout, PerSpan.get_set_ne _ _ other]
  · rw [underStand, PerStand.get_set_self]
  · rw [underStand, PerStand.get_set_ne _ _ other]
  · rw [acc, PerPoint.get_set_self]

end Sys2Proof
end

section
/-! The engines' operations as functions of one engine: starting, serving the queue, placing and finishing moves (R87 to R93), updates
(R89), settling (R90), position errors (R103) and SET_STAND (R104). -/
namespace Sys2Proof.Machine
open Sys2Proof.Safety

/-! ### One engine -/

/-- R89: the engine that starts a move. -/
def Engine.started (m : Move) (e : Engine) : Engine :=
  if updatesFor (m.target - e.ref).natAbs m.step = 0 then
    { e with act := .settling { move := m, remaining := 0 }, settleLeft := some e.cfg.settleTime }
  else
    { e with act := .ramping { move := m, remaining := updatesFor (m.target - e.ref).natAbs m.step }, settleLeft := none }

/-- R87: the engine whose oldest pending move starts where it is IDLE and nothing blocks the stand. -/
def Engine.served (blocked : Bool) (e : Engine) : Engine :=
  match e.pending with
  | [] => e
  | m :: rest => if e.act.isIdle && !blocked then ({ e with pending := rest, retracted := false } : Engine).started m else e

/-- R93: the engine that takes a SETUP or LINK move. -/
def Engine.placed (m : Move) (blocked : Bool) (e : Engine) : Engine :=
  if e.givenWay.act.isIdle && e.pending.isEmpty && !blocked then e.givenWay.started m
  else ({ e.givenWay with pending := e.pending ++ [m] } : Engine).served blocked

theorem started_iff {m : Move} (moves : 0 < m.step) (e : Engine) : Started e m (e.started m) := by
  obtain ⟨covers, least⟩ := updatesFor_least (m.target - e.ref).natAbs m.step moves
  exact ⟨_, covers, least, rfl⟩

@[simp] theorem Engine.givenWay_pending (e : Engine) : e.givenWay.pending = e.pending := by
  unfold givenWay
  split <;> rfl

theorem Engine.served_empty {e : Engine} (empty : e.pending = []) (blocked : Bool) : e.served blocked = e := by
  simp [served, empty]

theorem Engine.served_kept {e : Engine} {blocked : Bool} (kept : e.act ≠ .idle ∨ blocked = true) : e.served blocked = e := by
  have shut : (e.act.isIdle && !blocked) = false := by
    rcases kept with busy | shut
    · rw [(Bool.not_eq_true _).mp fun idle => busy ((Activity.isIdle_iff _).mp idle), Bool.false_and]
    · simp [shut]
  unfold served
  split
  · rfl
  · simp [shut]

theorem Engine.served_next {e : Engine} {m : Move} {rest : List Move} (pending : e.pending = m :: rest) (idle : e.act = .idle) :
    e.served false = ({ e with pending := rest, retracted := false } : Engine).started m := by
  simp [served, pending, idle, Activity.isIdle]

theorem Engine.placed_starts {e : Engine} (idle : e.givenWay.act = .idle) (empty : e.pending = []) (m : Move) :
    e.placed m false = e.givenWay.started m := by
  simp [placed, idle, empty, Activity.isIdle]

theorem Engine.placed_waits {e : Engine} {blocked : Bool} (waits : e.givenWay.act ≠ .idle ∨ blocked = true) (m : Move) :
    e.placed m blocked = { e.givenWay with pending := e.pending ++ [m] } := by
  have shut : ¬(e.givenWay.act.isIdle && e.pending.isEmpty && !blocked) = true := by
    intro free
    simp only [Bool.and_eq_true, Activity.isIdle_iff, Bool.not_eq_true'] at free
    obtain ⟨⟨idle, -⟩, unblocked⟩ := free
    rcases waits with busy | shut
    · exact busy idle
    · simp [unblocked] at shut
  rw [placed, if_neg shut]
  exact served_kept (e := { e.givenWay with pending := e.pending ++ [m] }) waits

/-! ### The operations by their engine -/

theorem startMove_setEngine (k : Stand) (m : Move) (s : State) :
    startMove k m s = setEngine k ((s.eng.get k).started m) s := by
  unfold startMove Engine.started
  dsimp only
  split <;> rfl

theorem checkPending_setEngine (k : Stand) (s : State) :
    checkPending k s = setEngine k ((s.eng.get k).served (s.blocked k)) s := by
  have same : setEngine k (s.eng.get k) s = s := by rw [setEngine, PerStand.set_get]
  unfold checkPending Engine.served
  dsimp only
  cases pending : (s.eng.get k).pending with
  | nil => exact same.symm
  | cons m rest =>
    dsimp only
    split
    · rw [startMove_setEngine]
      simp [setEngine]
    · exact same.symm

/-- R93: dropping a FEEDBACK move ends the stand's POSITION condition too. -/
theorem makeWay_split (k : Stand) (s : State) :
    makeWay k s = { s with
      eng := s.eng.set k (s.eng.get k).givenWay
      trips := if (s.eng.get k).act.isOf .feedback then (setLive (.position k) false s).trips else s.trips } := by
  unfold makeWay Engine.givenWay
  simp only [setEngine_eng, PerStand.get_set_self]
  split
  · simp [dropActive, clearPosErr, setEngine, setLive, setSource, Engine.ended]
  · rfl

theorem placed_split (k : Stand) (m : Move) (s : State) :
    placed k m s = { s with
      eng := s.eng.set k ((s.eng.get k).placed m (s.blocked k))
      trips := if (s.eng.get k).act.isOf .feedback then (setLive (.position k) false s).trips else s.trips } := by
  have blocked : (makeWay k s).blocked k = s.blocked k := by
    rw [makeWay_split]
    rfl
  have eng : (makeWay k s).eng.get k = (s.eng.get k).givenWay := by rw [makeWay_eng, PerStand.get_set_self]
  unfold placed Engine.placed startsAtOnce
  dsimp only
  rw [blocked, eng, Engine.givenWay_pending]
  split
  · rw [startMove_setEngine, eng, makeWay_split]
    simp [setEngine]
  · rw [checkPending_setEngine]
    simp only [setEngine_eng, PerStand.get_set_self]
    rw [show (setEngine k _ (makeWay k s)).blocked k = s.blocked k from blocked, makeWay_split]
    simp [setEngine]

theorem takeMove_split (k : Stand) (m : Move) (s : State) :
    takeMove k m s = { s with
      eng := s.eng.set k ((s.eng.get k).placed m (s.blocked k))
      gauge := { s.gauge with
        stands := s.gauge.stands.set k { s.gauge.stands.get k with st := agcStateOf (takeMove k m s) k } }
      trips := if (s.eng.get k).act.isOf .feedback then (setLive (.position k) false s).trips else s.trips } := by
  have derived : agcStateOf (takeMove k m s) k = agcStateOf (placed k m s) k := by rw [takeMove_eq, agcStateOf_deriveAgc]
  rw [derived, takeMove_eq, deriveAgc, setAgc]
  rw [placed_split]

theorem finished_split (k : Stand) (m : Move) (st : MoveStatus) (s : State) :
    finished k m st s = { s with
      eng := s.eng.set k ((s.eng.get k).ended ((s.eng.get k).retracted || m.origin == .retract))
      slots := (match m.tag with
        | some x => s.slots.set x none
        | none => s.slots)
      trips := (setLive (.position k) false s).trips
      link := if m.origin = .setup ∨ m.origin = .link then
          (s.link.offer (.moveDone k m.tag m.origin st m.clamped (s.eng.get k).ref (s.measured (.position k)))).pump
        else s.link } := by
  unfold finished
  dsimp only
  obtain ⟨origin, target, step, tag, clamped⟩ := m
  cases tag <;> split <;>
    simp [freeSlot, clearPosErr, setEngine, setLive, setSource, Engine.ended, reportMove, report_eq, State.measured,
      State.chanValid, setSlots]

theorem finishMove_split (k : Stand) (m : Move) (st : MoveStatus) (s : State) :
    finishMove k m st s = { s with
      eng := s.eng.set k
        (((s.eng.get k).ended ((s.eng.get k).retracted || m.origin == .retract)).served (s.blocked k))
      slots := (match m.tag with
        | some x => s.slots.set x none
        | none => s.slots)
      trips := (setLive (.position k) false s).trips
      link := if m.origin = .setup ∨ m.origin = .link then
          (s.link.offer (.moveDone k m.tag m.origin st m.clamped (s.eng.get k).ref (s.measured (.position k)))).pump
        else s.link } := by
  have blocked : (finished k m st s).blocked k = s.blocked k := blocked_congr (by rw [finished_ilk]) k
  rw [finishMove_eq, checkPending_setEngine, blocked, finished_eng, PerStand.get_set_self, finished_split]
  simp [setEngine]

/-! ### Updates, settling, position errors and SET_STAND -/

section
variable {k : Stand} {s : State}

theorem exec_updateExpiry (free : s.pins.reset = false) (k : Stand) : exec (.updateExpiry k) s = .next (update k s) :=
  congrArg Host.Outcome.next (unlessHeld_free free)

theorem exec_rampDone (free : s.pins.reset = false) (k : Stand) : exec (.rampDone k) s = .next (landRamp k s) :=
  congrArg Host.Outcome.next (unlessHeld_free free)

theorem exec_settleTimerExpiry (free : s.pins.reset = false) (k : Stand) :
    exec (.settleTimerExpiry k) s = .next (settleTimeout k s) := congrArg Host.Outcome.next (unlessHeld_free free)

/-- R85: the reference of an engine that has been replaced. -/
theorem setRef_setEngine (k : Stand) (v : Int) (e : Engine) (s : State) :
    setRef k v (setEngine k e s) = { s with
      eng := s.eng.set k { e with ref := v }
      port := if v = e.ref then s.port else s.port.set k { last := some v, sends := (s.port.get k).sends + 1 } } := by
  rw [setRef_eq]
  simp [setEngine]

theorem settleTest_settling {a : Active} (settling : (s.eng.get k).act = .settling a) (v : Int) :
    settleTest k v s =
      if ((v - a.move.target).natAbs : Int) ≤ (s.eng.get k).cfg.inPos then deriveAgc k (finishMove k a.move .reached s) else s := by
  simp [settleTest, settling]

theorem settleTest_other (other : ∀ a, (s.eng.get k).act ≠ .settling a) (v : Int) : settleTest k v s = s := by
  unfold settleTest
  dsimp only
  split
  · rename_i a settling
    exact absurd settling (other a)
  all_goals rfl

theorem settleTimeout_other (other : (∀ a, (s.eng.get k).act ≠ .settling a) ∨ (s.eng.get k).settleLeft = none) :
    settleTimeout k s = s := by
  unfold settleTimeout
  dsimp only
  split
  · rename_i a left settling running
    rcases other with other | stopped
    · exact absurd settling (other a)
    · exact absurd stopped (by simp [running])
  · rfl
end

/-! ### SET_STAND -/

/-- R104: the settings by the clamps as the rule says them. -/
theorem clampedCfg_eq (f : StandFields) :
    clampedCfg f =
      { gapMin := min f.gapMin.toNat 29000, gapMax := clamp (min (f.gapMin.toNat : Int) 29000 + 1000) 30000 f.gapMax.toNat,
        f0 := min f.f0.toNat 5000, m := clamp 1000 10000 f.m.toNat, fMax := clamp 1000 40000 f.fMax.toNat,
        biteOn := clamp 100 10000 f.biteOn.toNat, biteOff := min f.biteOff.toNat (clamp 100 10000 f.biteOn.toNat - 1),
        setRate := clampNat 1 500 f.setRate.toNat, agcRate := clampNat 1 500 f.agcRate.toNat,
        retractRate := clampNat 1 2000 f.retractRate.toNat, stepMax := clamp 1 2000 f.stepMax.toNat,
        settleTime := clampNat 5 500 f.settleTime.toNat, inPos := clamp 1 200 f.inPos.toNat,
        posErrLimit := clamp 10 5000 f.posErrLimit.toNat, posErrCount := clampNat 1 100 f.posErrCount.toNat } := by
  have low : clamp 0 29000 (f.gapMin.toNat : Int) = min (f.gapMin.toNat : Int) 29000 := clamp_zero_uint 29000 f.gapMin
  have floor : clamp 0 5000 (f.f0.toNat : Int) = min (f.f0.toNat : Int) 5000 := clamp_zero_uint 5000 f.f0
  have off : clamp 0 (clamp 100 10000 (f.biteOn.toNat : Int) - 1) f.biteOff.toNat =
      min (f.biteOff.toNat : Int) (clamp 100 10000 f.biteOn.toNat - 1) := by
    have range := (clamp_bounds (lo := 100) (hi := 10000) (by decide) f.biteOn.toNat).1
    generalize clamp 100 10000 (f.biteOn.toNat : Int) = on at range ⊢
    unfold clamp
    split <;> omega
  simp only [clampedCfg, uint, low, floor, off]

section
variable {f : StandFields} {k : Stand} {s : State}

theorem answerSetStand_outside (named : Stand.ofNat? f.stand.toNat = some k)
    (out : ¬inWindow (clampedCfg f) (s.eng.get k).ref) : answerSetStand f s = refuse .range s := by
  have outside : (s.eng.get k).ref < (clampedCfg f).gapMin ∨ (clampedCfg f).gapMax < (s.eng.get k).ref := by
    unfold inWindow at out
    omega
  simp [answerSetStand, named, outside]

/-- R104: the settings that would leave the reference in the window. -/
theorem answerSetStand_inside (named : Stand.ofNat? f.stand.toNat = some k)
    (inside : inWindow (clampedCfg f) (s.eng.get k).ref) :
    answerSetStand f s =
      if !(s.eng.get k).atRest then refuse .busy s
      else
        { state := setEngine k { s.eng.get k with cfg := clampedCfg f } s
          status := okOr (cfgValues (clampedCfg f) != sentValues f)
          content := (cfgValues (clampedCfg f)).flatMap be2 } := by
  have within : ¬((s.eng.get k).ref < (clampedCfg f).gapMin ∨ (clampedCfg f).gapMax < (s.eng.get k).ref) := by
    unfold inWindow at inside
    omega
  simp only [answerSetStand, named, if_neg within]

theorem Engine.atRest_iff (e : Engine) : e.atRest = true ↔ e.act = .idle ∧ e.pending = [] := by
  rw [Engine.atRest, Bool.and_eq_true, Activity.isIdle_iff, List.isEmpty_iff]

theorem answerSetStand_busy (named : Stand.ofNat? f.stand.toNat = some k)
    (inside : inWindow (clampedCfg f) (s.eng.get k).ref)
    (busy : (s.eng.get k).act ≠ .idle ∨ (s.eng.get k).pending ≠ []) : answerSetStand f s = refuse .busy s := by
  have moving : (s.eng.get k).atRest = false := by
    rw [← Bool.not_eq_true, Engine.atRest_iff, Classical.not_and_iff_not_or_not]
    exact busy
  rw [answerSetStand_inside named inside, moving]
  rfl

theorem answerSetStand_stored (named : Stand.ofNat? f.stand.toNat = some k)
    (inside : inWindow (clampedCfg f) (s.eng.get k).ref)
    (idle : (s.eng.get k).act = .idle) (empty : (s.eng.get k).pending = []) :
    answerSetStand f s =
      { state := setEngine k { s.eng.get k with cfg := clampedCfg f } s
        status := if cfgValues (clampedCfg f) = sentValues f then .ok else .adjusted
        content := (cfgValues (clampedCfg f)).flatMap be2 } := by
  rw [answerSetStand_inside named inside, (Engine.atRest_iff _).2 ⟨idle, empty⟩, okOr]
  by_cases same : cfgValues (clampedCfg f) = sentValues f <;> simp [same]
end

end Sys2Proof.Machine
namespace Sys2Proof
open Machine Safety

/-- Settles O38: the update by its count. -/
theorem updatesStepTowardTarget : Obligations.UpdatesStepTowardTarget := by
  intro k s free e becomes
  rw [exec_updateExpiry free, exec_rampDone free]
  refine ⟨fun a ramping => ?_, fun other => ?_⟩
  · intro v landed
    have stepped (more : 1 < a.remaining) :
        update k s = becomes { e with ref := v, act := .ramping { a with remaining := a.remaining - 1 } } := by
      have act : (s.eng.get k).act = .ramping a := ramping
      simp only [update, act, if_pos more, setRef_setEngine]
      rfl
    have last (few : a.remaining ≤ 1) : update k s = landed := by
      have act : (s.eng.get k).act = .ramping a := ramping
      simp only [update, act, if_neg (Nat.not_lt.2 few), setRef_setEngine]
      rfl
    refine ⟨fun more => by rw [stepped more], fun more => by rw [landRamp_early ramping more], fun few => ?_⟩
    rw [landRamp_last ramping few, last few]
    exact ⟨rfl, rfl⟩
  · obtain ⟨updated, landed⟩ := update_and_landRamp_still other
    rw [updated, landed]
    exact ⟨rfl, rfl⟩

/-- Settles O39: the engine a move is placed in, and the frame of taking it. -/
theorem takenMovesStartOrWait : Obligations.TakenMovesStartOrWait := by
  intro k m s moves e dropped e1 t
  have way : e.givenWay = e1 := by
    simp only [e1, dropped, Engine.givenWay, Engine.ended]
  have taken : t = _ := takeMove_split k m s
  have engine : t.eng = s.eng.set k (e.placed m (s.blocked k)) := by
    rw [taken]
  refine ⟨fun idle empty free => ?_, fun waits => ?_, fun j other => ?_, ?_⟩
  · rw [engine, PerStand.get_set_self, free, Engine.placed_starts (way ▸ idle) empty, way]
    exact started_iff moves e1
  · rw [engine, PerStand.get_set_self, Engine.placed_waits (way ▸ waits), way]
  · rw [engine, PerStand.get_set_ne _ _ other]
  · rw [engine]
    exact taken

/-- Settles O40: a finished move's engine and frame, and the tests that finish it. -/
theorem finishedMovesGiveWay : Obligations.FinishedMovesGiveWay := by
  intro k s e
  refine ⟨fun free => ⟨fun a settling running => ?_, fun other => ?_⟩, fun m status => ?_, fun v => ?_⟩
  · obtain ⟨left, left_eq⟩ := Option.ne_none_iff_exists'.1 running
    have act : (s.eng.get k).act = .settling a := settling
    have runs : (s.eng.get k).settleLeft = some left := left_eq
    rw [exec_settleTimerExpiry free]
    simp [settleTimeout, act, runs]
  · rw [exec_settleTimerExpiry free, settleTimeout_other other]
  · intro idle t
    have finish : t = _ := finishMove_split k m status s
    have engine : t.eng = s.eng.set k (idle.served (s.blocked k)) := by
      rw [finish]
      rfl
    refine ⟨fun kept => ?_, fun p rest pending free moves => ?_, fun j other => ?_, ?_⟩
    · rw [engine, PerStand.get_set_self]
      rcases kept with empty | shut
      · exact Engine.served_empty (e := idle) empty _
      · exact Engine.served_kept (e := idle) (.inr shut)
    · rw [engine, PerStand.get_set_self, free, Engine.served_next (e := idle) pending rfl]
      exact started_iff moves _
    · rw [engine, PerStand.get_set_ne _ _ other]
    · rw [engine]
      exact finish
  · intro far n
    refine ⟨fun idle => ?_, fun busy => ?_, rfl, fun a settling near => ?_, fun a settling beyond => ?_, fun other => ?_⟩
    · have act : (s.eng.get k).act = .idle := idle
      simp [countPosErr, act, Activity.isIdle]
    · exact if_neg fun idle => busy ((Activity.isIdle_iff _).1 idle)
    · rw [settleTest_settling settling, if_pos near]
    · rw [settleTest_settling settling, if_neg (Int.not_le.2 beyond)]
    · rw [settleTest_other other]

/-- Settles O43: SET_STAND's checks in order, and the fifteen clamped settings. -/
theorem setStandKeepsReferenceInWindow : Obligations.SetStandKeepsReferenceInWindow := by
  intro tag f s may h gapMin biteOn c values sent
  have cfg : clampedCfg f = c := clampedCfg_eq f
  refine ⟨fun none => request_replied may ?_, fun k named => ?_⟩
  · simp [answerSetStand, none, refuse, h]
  · intro e
    have engine : h.eng.get k = e := by rw [show h.eng = s.eng from heard_eng s]
    refine ⟨fun out => request_replied may ?_, fun inside busy => request_replied may ?_, fun inside idle empty =>
      request_replied may ?_⟩
    · exact answerSetStand_outside named (by rwa [cfg, engine])
    · exact answerSetStand_busy named (by rwa [cfg, engine]) (by rwa [engine])
    · rw [answerSetStand_stored named (by rwa [cfg, engine]) (engine ▸ idle) (engine ▸ empty), cfg]
      rw [engine]
      rfl

end Sys2Proof
end

section
/-! Setup moves at a coil's birth and at a TAIL (R58, R59): each touches its own stand's engine and the coil's setup marks alone. -/
namespace Sys2Proof.Machine
open Sys2Proof.Safety

/-! ### One setup move -/

/-- R95: the engine after a setup move is refused or taken. -/
def Engine.setup (gap : Int) (retracting blocked : Bool) (e : Engine) : Engine :=
  if retracting || decide (4 ≤ e.pending.length) then e else e.placed (setupMove e.cfg gap) blocked

theorem issueSetup_eng (k : Stand) (gap : Int) (s : State) :
    (issueSetup k gap s).eng = s.eng.set k ((s.eng.get k).setup gap (s.retracting k) (s.blocked k)) := by
  rw [issueSetup_eq, Engine.setup]
  by_cases shut : s.retracting k = true
  · simp [shut]
  · by_cases full : 4 ≤ (s.eng.get k).pending.length
    · simp [shut, full]
    · simp only [Bool.eq_false_iff.2 shut, full, decide_false, Bool.or_self, Bool.false_eq_true, if_false]
      rw [takeMove_split]

theorem setupAt_eng (key : Nat) (sch : Schedule) (s : State) (k : Stand) :
    (setupAt key sch s k).eng = (issueSetup k (sch.stands.get k).gap s).eng :=
  (issueSetup_eng k _ _).trans (issueSetup_eng k _ s).symm

theorem issueSetup_ilk (k : Stand) (gap : Int) (s : State) : (issueSetup k gap s).ilk = s.ilk := by
  rw [issueSetup_eq]
  split
  · rfl
  · split
    · rfl
    · rw [takeMove_split]

/-- R95: what a setup move does at its stand follows that stand's engine and the action sets alone. -/
theorem issueSetup_engine_congr {k : Stand} {s t : State} (eng : t.eng.get k = s.eng.get k) (sets : t.ilk.sets = s.ilk.sets)
    (gap : Int) : (issueSetup k gap t).eng.get k = (issueSetup k gap s).eng.get k := by
  rw [issueSetup_eng, issueSetup_eng, PerStand.get_set_self, PerStand.get_set_self, eng, retracting_congr sets,
    blocked_congr sets]

/-! ### The setups of a birth -/

/-- R58: the setups reach exactly the engines of the stands they are for. -/
theorem setups_eng (key : Nat) (sch : Schedule) {ks : List Stand} (once : ks.Nodup) (s : State) (j : Stand) :
    (ks.foldl (setupAt key sch) s).eng.get j =
      if j ∈ ks then (issueSetup j (sch.stands.get j).gap s).eng.get j else s.eng.get j := by
  induction ks generalizing s with
  | nil => rfl
  | cons k ks ih =>
    obtain ⟨fresh, once⟩ := List.nodup_cons.1 once
    have sets : (setupAt key sch s k).ilk.sets = s.ilk.sets := by
      rw [setupAt, issueSetup_ilk]
      rfl
    rw [List.foldl_cons, ih once]
    by_cases here : j = k
    · subst here
      rw [if_neg fresh, if_pos List.mem_cons_self, setupAt_eng]
    · have eng : (setupAt key sch s k).eng.get j = s.eng.get j := by
        rw [setupAt_eng, issueSetup_eng, PerStand.get_set_ne _ _ here]
      rw [issueSetup_engine_congr eng sets, eng]
      simp [here]

/-- R58: a coil with the setup done marks of some stands set. -/
def Coil.marked (ks : List Stand) (c : Coil) : Coil := { c with setup := .ofFn fun k => c.setup.get k || decide (k ∈ ks) }

theorem Coil.marked_nil (c : Coil) : c.marked [] = c := by
  have same : (PerStand.ofFn fun k => c.setup.get k || decide (k ∈ ([] : List Stand))) = c.setup :=
    PerStand.eq_of_get fun k => by simp
  rw [marked, same]

theorem Coil.marked_cons (k : Stand) (ks : List Stand) (c : Coil) :
    ({ c with setup := c.setup.set k true } : Coil).marked ks = c.marked (k :: ks) := by
  have same : (PerStand.ofFn fun j => (c.setup.set k true).get j || decide (j ∈ ks)) =
      PerStand.ofFn fun j => c.setup.get j || decide (j ∈ k :: ks) := by
    refine PerStand.eq_of_get fun j => ?_
    by_cases here : j = k <;> simp [PerStand.get_set, here]
  rw [marked, same]
  rfl

/-! ### One coil of the table -/

/-- R53: a coil changed while its place and key stay. -/
def atCoil (key : Nat) (f : Coil → Coil) (c : Coil) : Coil := if c.key = key then f c else c

theorem mapCoil_sched (key : Nat) (f : Coil → Coil) (s : State) :
    (mapCoil key f s).sched = { s.sched with coils := s.sched.coils.map (atCoil key f) } := rfl

theorem mapCoil_eq (key : Nat) (f : Coil → Coil) (s : State) :
    mapCoil key f s = { s with sched := { s.sched with coils := (mapCoil key f s).sched.coils } } := rfl

theorem atCoil_twice (key : Nat) {f : Coil → Coil} (g : Coil → Coil) (kept : ∀ c, (f c).key = c.key) (c : Coil) :
    atCoil key g (atCoil key f c) = atCoil key (fun c => g (f c)) c := by
  unfold atCoil
  by_cases own : c.key = key <;> simp [own, kept]

/-- R53: only the coil with the key changes. -/
theorem atCoil_split {key : Nat} (f : Coil → Coil) {ahead behind : List Coil} {c : Coil} (own : c.key = key)
    (others : ∀ d ∈ ahead ++ behind, d.key ≠ key) :
    (ahead ++ c :: behind).map (atCoil key f) = ahead ++ f c :: behind := by
  have same (l : List Coil) (kept : ∀ d ∈ l, d.key ≠ key) : l.map (atCoil key f) = l :=
    (List.map_congr_left fun d here => if_neg (kept d here)).trans (List.map_id' l)
  rw [List.map_append, List.map_cons, same ahead fun d here => others d (List.mem_append_left _ here),
    same behind fun d here => others d (List.mem_append_right _ here), atCoil, if_pos own]

/-- R58: the setups mark the coil at the stands they are for. -/
theorem setups_sched (key : Nat) (sch : Schedule) (ks : List Stand) (s : State) :
    (ks.foldl (setupAt key sch) s).sched =
      { s.sched with coils := s.sched.coils.map (atCoil key (Coil.marked ks)) } := by
  induction ks generalizing s with
  | nil =>
    have same : atCoil key (Coil.marked []) = id := funext fun c => by simp [atCoil, Coil.marked_nil]
    rw [same, List.map_id]
    rfl
  | cons k ks ih =>
    have sched : (setupAt key sch s k).sched = _ := (sched_of_calm (calm_issueSetup k _ _)).trans (mapCoil_sched key _ s)
    rw [List.foldl_cons, ih, sched]
    simp only [List.map_map]
    congr 2
    funext c
    rw [Function.comp_apply, atCoil_twice _ _ (by intro _; rfl)]
    simp only [Coil.marked_cons]

/-! ### The coils a setup is for -/

section
variable {s : State} {c : Coil}

theorem coilOf_split {ahead behind : List Coil} (split : s.sched.coils = ahead ++ c :: behind)
    (earlier : ∀ d ∈ ahead, d.key ≠ c.key) : s.coilOf c.key = some c := by
  have skipped : (ahead.find? fun d => d.key == c.key) = none := by simpa using earlier
  rw [State.coilOf, split, List.find?_append, skipped]
  simp

/-- R58: the newest coil's setups, by the coils ahead of it. -/
theorem setupsAtBirth_newest {earlier : List Coil} (split : s.sched.coils = earlier ++ [c])
    (others : ∀ d ∈ earlier, d.key ≠ c.key) :
    setupsAtBirth c.key s = match c.schedule with
      | none => s
      | some sch =>
        (Stand.all.filter fun k => earlier.all fun d => d.tail.get (.stand k)).foldl (setupAt c.key sch) s := by
  have ahead : (s.sched.coils.takeWhile fun d => d.key != c.key) = earlier := by
    rw [split, List.takeWhile_append_of_pos (by simpa using others)]
    simp
  unfold setupsAtBirth
  dsimp only
  rw [ahead, coilOf_split split others]
  rfl

theorem others_of_nodup {ahead behind : List Coil} (once : ((ahead ++ c :: behind).map Coil.key).Nodup) :
    ∀ d ∈ ahead ++ behind, d.key ≠ c.key := by
  rw [List.map_append, List.map_cons, List.nodup_append, List.nodup_cons] at once
  obtain ⟨-, ⟨behindOnce, -⟩, apart⟩ := once
  intro d here same
  rcases List.mem_append.1 here with isAhead | isBehind
  · exact apart _ (List.mem_map_of_mem isAhead) _ List.mem_cons_self same
  · exact behindOnce (same ▸ List.mem_map_of_mem isBehind)

/-- R59: the coils from the one that has gone on. -/
theorem dropWhile_split {ahead behind : List Coil} (others : ∀ d ∈ ahead, d.key ≠ c.key) :
    (ahead ++ c :: behind).dropWhile (fun d => d.key != c.key) = c :: behind := by
  rw [List.dropWhile_append_of_pos (by simpa using others)]
  simp
end

end Sys2Proof.Machine
namespace Sys2Proof
open Machine Safety

/-- Settles O31: the stands a birth's setups are for, and the coil behind the one that has gone. -/
theorem setupsWaitForEarlierTails : Obligations.SetupsWaitForEarlierTails := by
  intro s
  refine ⟨fun earlier c split others => ?_, fun k ahead behind gone next split once => ?_, fun k ahead gone split once => ?_⟩
  · intro free marked t
    have birth : t = _ := setupsAtBirth_newest split others
    refine ⟨fun none => by rw [birth, none], fun sch scheduled => ?_⟩
    have fold : t = (Stand.all.filter free).foldl (setupAt c.key sch) s := by
      rw [birth, scheduled]
    have listed (k : Stand) : k ∈ Stand.all.filter free ↔ free k = true := by simp
    refine ⟨fold, ?_, fun k => ?_⟩
    · have marks : Coil.marked (Stand.all.filter free) c =
          { c with setup := .ofFn fun k => c.setup.get k || free k } := by
        simp [Coil.marked]
      rw [fold, setups_sched, ← marks, split]
      exact atCoil_split _ rfl (by simpa using others)
    · rw [fold, setups_eng _ _ (Stand.all_nodup.filter _)]
      simp only [listed]
  · have fresh := others_of_nodup (split ▸ once)
    have found := (congrArg (List.dropWhile fun d => d.key != gone.key) split).trans
      (dropWhile_split fun d here => fresh d (List.mem_append_left _ here))
    refine ⟨fun none => by simp [setupAtTail, found, none], fun sch scheduled => ?_⟩
    have again : s.sched.coils = (ahead ++ [gone]) ++ next :: behind := by simp [split]
    have marked : (mapCoil next.key (fun c => { c with setup := c.setup.set k true }) s).sched.coils = _ :=
      (congrArg (List.map _) again).trans (atCoil_split _ rfl (others_of_nodup (again ▸ once)))
    have issued : setupAtTail k gone.key s = setupAt next.key sch s k := by
      simp only [setupAtTail, found, List.tail_cons, List.head?_cons, scheduled]
    rw [issued, setupAt, mapCoil_eq, marked, List.append_assoc]
    rfl
  · have fresh := others_of_nodup (split ▸ once)
    have found := (congrArg (List.dropWhile fun d => d.key != gone.key) split).trans
      (dropWhile_split fun d here => fresh d (List.mem_append_left _ here))
    simp [setupAtTail, found]

end Sys2Proof
end

section
/-! Strip-present changes (R28 to R32): a birth by the tracking unit's layout and the coil table, admission, rejection and the falling. -/
namespace Sys2Proof.Machine
open Sys2Proof.Safety

/-! ### The tracking unit after a birth -/

@[simp] theorem Tracking.used_layout (t : Tracking) : t.layout.used = t.used := by
  have exit : (t.underExit.map Seg.named).toList.length = t.underExit.toList.length := by cases t.underExit <;> rfl
  simp [used, segs_eq, layout_queue, List.length_flatMap, show t.layout.underExit = t.underExit.map Seg.named from rfl, exit]

/-- R30: the tracking unit with a record born at the back of span queue 0. -/
def Tracking.borne (kind : Kind) (c : Coil) (t : Tracking) : Tracking :=
  { t with
    acc := t.acc.set .entry { sum := 0, count := 0 }
    nextId := (t.nextId + 1) % 4096
    queues := t.queues.set .entry (t.queues.get .entry ++ [{ seg := newSeg t.nextId kind c, dist := t.spanLen.entry }])
    underEntry := some t.nextId
    entryDist := 0
    poolFull := if kind = .head then t.poolFull else false }

theorem layout_bear (kind : Kind) (c : Coil) (t : Tracking) : (bear kind c t).layout = t.layout.borne kind c := by
  have closed := layout_closeAtEntry t
  have queue : ((closeAtEntry t).queues.get .entry).map Queued.named = t.layout.queues.get .entry := by
    rw [← Tracking.layout_queue, closed]
  have joined := Tracking.layout_setQueue (closeAtEntry t) .entry
    ((closeAtEntry t).queues.get .entry ++ [{ seg := newSeg t.nextId kind c, dist := t.spanLen.entry }])
  rw [List.map_append, queue, closed] at joined
  rw [bear_eq]
  exact congrArg (fun v : Tracking => { v with
    nextId := (t.nextId + 1) % 4096
    underEntry := some t.nextId
    entryDist := 0
    poolFull := if kind = Kind.head then t.poolFull else false }) joined

theorem layout_birth {kind : Kind} {c : Coil} {s : State} (newest : s.sched.coils.getLast? = some c) :
    (birth kind s).trk.layout = s.trk.layout.borne kind c := by
  rw [birth_eq newest]
  dsimp only
  split
  · rw [layout_setupsAtBirth]
    exact layout_bear kind c s.trk
  · exact layout_bear kind c s.trk

section
variable {kind : Kind} {c : Coil} {t u : Tracking} {e : EntryState}

/-- R30: the record a birth puts at the back of span queue 0, by the layout. -/
theorem borne_last (layout : u.layout = { t.layout.borne kind c with entry := e }) :
    ∃ q, (u.queues.get .entry).getLast? = some q ∧ q.dist = (t.spanLen.get .entry : Int) ∧ q.seg.id = t.nextId ∧
      q.seg.kind = kind ∧ q.seg.coil = c.number := by
  have last : ((u.queues.get .entry).getLast?).map Queued.named = some { seg := newSeg t.nextId kind c, dist := t.spanLen.entry } := by
    rw [← List.getLast?_map, ← Tracking.layout_queue, layout]
    rw [Tracking.borne, PerSpan.get_set_self, List.getLast?_concat]
    rfl
  obtain ⟨q, here, named⟩ := Option.map_eq_some_iff.1 last
  have dist := congrArg Queued.dist named
  have seg := congrArg Queued.seg named
  exact ⟨q, here, dist, congrArg Seg.id seg, congrArg Seg.kind seg, congrArg Seg.coil seg⟩

theorem borne_used (layout : u.layout = { t.layout.borne kind c with entry := e }) : u.used = t.used + 1 := by
  rw [← u.used_layout, ← t.used_layout, layout]
  simp [Tracking.used, Tracking.segs, Tracking.borne, PerSpan.toList, PerSpan.set, PerSpan.get]
  omega
end

/-! ### The coil table after a birth -/

theorem birth_sched {kind : Kind} {c : Coil} {s : State} {earlier : List Coil} (split : s.sched.coils = earlier ++ [c])
    (others : ∀ d ∈ earlier, d.key ≠ c.key) :
    mapCoil c.key (countBirth kind) (setTrk (bear kind c s.trk) s) =
      { s with trk := bear kind c s.trk, sched := { s.sched with coils := earlier ++ [countBirth kind c] } } := by
  have marked : s.sched.coils.map (atCoil c.key (countBirth kind)) = earlier ++ [countBirth kind c] := by
    rw [split]
    exact atCoil_split _ rfl (by simpa using others)
  rw [← marked]
  rfl

section
variable {c : Coil} {s : State} {earlier : List Coil}

/-- R58: the birth of the newest coil's HEAD, with its setups. -/
theorem birth_head (split : s.sched.coils = earlier ++ [c]) (others : ∀ d ∈ earlier, d.key ≠ c.key) :
    birth .head s =
      let born : State :=
        { s with trk := bear .head c s.trk, sched := { s.sched with coils := earlier ++ [countBirth .head c] } }
      match c.schedule with
      | none => born
      | some sch =>
        (Stand.all.filter fun k => earlier.all fun d => d.tail.get (.stand k)).foldl (setupAt c.key sch) born := by
  have newest : s.sched.coils.getLast? = some c := by rw [split, List.getLast?_concat]
  rw [birth_eq newest]
  dsimp only
  rw [birth_sched split others, if_pos rfl]
  exact setupsAtBirth_newest (c := countBirth .head c) rfl others

/-- R58: the marks of a coil's birth. -/
theorem birth_head_sched (split : s.sched.coils = earlier ++ [c]) (others : ∀ d ∈ earlier, d.key ≠ c.key) :
    (birth .head s).sched = { s.sched with coils := earlier ++ [{ countBirth .head c with
      setup := .ofFn fun k => c.setup.get k || (c.schedule.isSome && earlier.all fun d => d.tail.get (.stand k)) }] } := by
  rw [birth_head split others]
  dsimp only
  cases scheduled : c.schedule with
  | none =>
    have same : (PerStand.ofFn fun k => c.setup.get k || (false && earlier.all fun d => d.tail.get (.stand k))) = c.setup :=
      PerStand.eq_of_get fun k => by simp
    rw [Option.isSome_none, same]
    rfl
  | some sch =>
    have listed (k : Stand) : decide (k ∈ Stand.all.filter fun k => earlier.all fun d => d.tail.get (.stand k)) =
        (true && earlier.all fun d => d.tail.get (.stand k)) := by
      rw [Bool.eq_iff_iff]
      simp
    dsimp only
    rw [setups_sched]
    dsimp only
    rw [atCoil_split (key := c.key) (c := countBirth .head c) (behind := []) _ rfl (by simpa using others), Coil.marked]
    simp only [listed]
    rfl

/-- R58: a birth's setups reach the stands every earlier coil has left. -/
theorem birth_head_eng (split : s.sched.coils = earlier ++ [c]) (others : ∀ d ∈ earlier, d.key ≠ c.key) (k : Stand) :
    (birth .head s).eng.get k = match c.schedule with
      | some sch =>
        if earlier.all fun d => d.tail.get (.stand k) then (issueSetup k (sch.stands.get k).gap s).eng.get k else s.eng.get k
      | none => s.eng.get k := by
  rw [birth_head split others]
  dsimp only
  cases c.schedule with
  | none => rfl
  | some sch =>
    dsimp only
    rw [setups_eng _ _ (Stand.all_nodup.filter _)]
    simp only [List.mem_filter, Stand.mem_all, true_and]
    split
    · refine issueSetup_engine_congr ?_ ?_ _ <;> rfl
    · rfl
end

/-! ### The debounce timer's running out -/

section
variable {s : State}

theorem exec_stripPresentDebounceExpiry (free : s.pins.reset = false) :
    exec .stripPresentDebounceExpiry s = .next (stripDebounced s) := congrArg Host.Outcome.next (unlessHeld_free free)

theorem stripDebounced_idle (idle : s.trk.stripTimer = none) : stripDebounced s = s := by simp [stripDebounced, idle]

/-- R28: the debounced state takes the raw level. -/
theorem stripDebounced_running (running : s.trk.stripTimer ≠ none) :
    stripDebounced s =
      let taken : State := { s with trk := { s.trk with strip := s.pins.strip, stripTimer := none } }
      if s.pins.strip = s.trk.strip then taken
      else tripStrip s.pins.strip (if s.pins.strip then stripRises taken else stripFalls taken) := by
  have runs : s.trk.stripTimer.isNone = false := by
    rw [← Bool.not_eq_true, Option.isNone_iff_eq_none]
    exact running
  simp only [stripDebounced, runs]
  rfl

theorem tripStrip_layout (present : Bool) (s : State) : (tripStrip present s).trk.layout = s.trk.layout :=
  layout_derivedConditions _

theorem tripStrip_sched (present : Bool) (s : State) : (tripStrip present s).sched = s.sched :=
  sched_of_calm (s := { s with trips := { s.trips with inputs := { s.trips.inputs with strip := present } } })
    (calm_derivedConditions _)

/-- R29: what a rising at an EMPTY entry does. -/
theorem stripRises_admitted (empty : s.trk.entry = .empty) (coils : s.sched.coils.length < 4) (room : s.trk.used ≤ 62) :
    stripRises s = setTrk { (birth .head (admitCoil s)).trk with entry := .admitted } (birth .head (admitCoil s)) := by
  have fits : ¬(Config.coilTableSize ≤ s.sched.coils.length ∨ s.trk.free < 2) := by
    simp only [Config.coilTableSize, Tracking.free, Config.poolSize]
    omega
  simp only [stripRises, empty, if_neg fits]
  rfl

theorem stripRises_rejected (empty : s.trk.entry = .empty) (full : 4 ≤ s.sched.coils.length ∨ 63 ≤ s.trk.used) :
    stripRises s = edge .stripLost (setTrk { s.trk with entry := .rejected } s) := by
  have shut : Config.coilTableSize ≤ s.sched.coils.length ∨ s.trk.free < 2 := by
    simp only [Config.coilTableSize, Tracking.free, Config.poolSize]
    omega
  simp only [stripRises, empty, if_pos shut]
  rfl

/-- R32: a falling that finds no coil being admitted. -/
theorem stripFalls_quiet (none : s.trk.entry ≠ .admitted) : stripFalls s = setTrk { s.trk with entry := .empty } s := by
  unfold stripFalls
  split
  · rename_i empty
    rw [← empty]
    rfl
  · rfl
  · rename_i admitted
    exact absurd admitted none

theorem stripFalls_admitted (admitted : s.trk.entry = .admitted) :
    stripFalls s = setTrk { (birth .tail s).trk with entry := .empty } (birth .tail s) := by
  simp only [stripFalls, admitted]
end

end Sys2Proof.Machine
namespace Sys2Proof
open Machine Safety

/-- Settles O24: a rejected rising, and the falling by the entry state. -/
theorem stripFallsOrIsRejected : Obligations.StripFallsOrIsRejected := by
  intro s free
  rw [exec_stripPresentDebounceExpiry free]
  refine ⟨fun idle => by rw [stripDebounced_idle idle], fun running same => ?_, fun running now was empty full => ?_,
    fun running now was quiet => ?_, fun c running now was admitted newest => ?_⟩
  · rw [stripDebounced_running running]
    simp only [same, if_true]
  · rw [stripDebounced_running running]
    simp only [now, was, Bool.true_eq_false, if_false, if_true]
    rw [stripRises_rejected (by exact empty) (by exact full)]
    rfl
  · rw [stripDebounced_running running]
    simp only [now, was, Bool.false_eq_true, if_false]
    rw [stripFalls_quiet (by exact quiet)]
    rfl
  · intro born t
    have layout : t.trk.layout = { s.trk.layout.borne .tail c with strip := false, stripTimer := none, entry := .empty } :=
      (tripStrip_layout _ _).trans
        (congrArg (fun v : Tracking => { v with entry := EntryState.empty }) (layout_birth (by exact newest)))
    have sched : t.sched = born.sched := tripStrip_sched _ _
    obtain ⟨q, last, dist, id, kind, coil⟩ := borne_last (t := { s.trk with strip := false, stripTimer := none }) layout
    refine ⟨?_, q, congrArg Tracking.strip layout, congrArg Tracking.entry layout, congrArg Tracking.poolFull layout, last, dist, id,
      kind, coil, congrArg Tracking.underEntry layout, congrArg Tracking.nextId layout,
      ⟨countBirth .tail c, ?_, ?_, rfl⟩,
      borne_used (t := { s.trk with strip := false, stripTimer := none }) layout⟩
    · rw [stripDebounced_running running]
      simp only [now, was, Bool.false_eq_true, if_false]
      rw [stripFalls_admitted (by exact admitted)]
      rfl
    · rw [sched, show born = _ from birth_eq (by exact newest)]
      simp [mapCoil, newest]
    · exact PerPoint.get_set_self _ .entry true

/-- Settles O23: the admission, the birth of the coil's HEAD, and its setups. -/
theorem stripRisingAdmitsCoil : Obligations.StripRisingAdmitsCoil := by
  intro s free running now was empty coils room ok number new admitted born t setupFree
  have newest : admitted.sched.coils.getLast? = some new := List.getLast?_concat
  have layout : t.trk.layout = { s.trk.layout.borne .head new with strip := true, stripTimer := none, entry := .admitted } :=
    (tripStrip_layout _ _).trans
      (congrArg (fun v : Tracking => { v with entry := EntryState.admitted }) (layout_birth newest))
  obtain ⟨q, last, dist, id, kind, coil⟩ := borne_last (t := admitted.trk) layout
  have others : ∀ d ∈ s.sched.coils, d.key ≠ new.key := fun d here => Nat.ne_of_lt (ok.given d here)
  refine ⟨?_, congrArg Tracking.strip layout, congrArg Tracking.stripTimer layout, congrArg Tracking.entry layout, ?_, ?_,
    ⟨q, last, dist, id, kind, coil⟩, congrArg Tracking.underEntry layout, congrArg Tracking.nextId layout,
    congrArg Tracking.entryDist layout, borne_used (t := admitted.trk) layout⟩
  · rw [exec_stripPresentDebounceExpiry free, stripDebounced_running running]
    simp only [now, was, Bool.true_eq_false, if_false, if_true]
    rw [stripRises_admitted (by exact empty) (by exact coils) (by exact room)]
    rfl
  · refine (tripStrip_sched _ _).trans ((birth_head_sched rfl others).trans ?_)
    have marks : (PerStand.ofFn fun k => new.setup.get k || (new.schedule.isSome && setupFree k)) =
        .ofFn fun k => s.sched.queue.head?.isSome && setupFree k := by
      simp [new]
    rw [marks]
    rfl
  · intro k
    have same (gap : Int) : (issueSetup k gap admitted).eng.get k = (issueSetup k gap s).eng.get k := by
      refine issueSetup_engine_congr ?_ ?_ _ <;> rfl
    refine (birth_head_eng (s := admitted) rfl others k).trans ?_
    simp only [same]
    rfl
end Sys2Proof
end

section
/-! Gauge control: the stretch rounded to nearest, a force value (R73, R74), and what an arrival does to a stand's reference
(R68 to R70). -/
namespace Sys2Proof.Machine
open Sys2Proof.Safety

/-! ### Rounding to nearest -/

/-- Twice a quotient's distance from the dividend is within the divisor, and a tie lies above. -/
theorem nearest_quotient {a b : Int} (pos : 0 < b) :
    -b ≤ 2 * (a - (2 * a + b) / (2 * b) * b) ∧ 2 * (a - (2 * a + b) / (2 * b) * b) < b := by
  have below := Int.ediv_mul_le (2 * a + b) (b := 2 * b) (by omega)
  have above := Int.lt_ediv_add_one_mul_self (2 * a + b) (b := 2 * b) (by omega)
  generalize (2 * a + b) / (2 * b) = n at below above ⊢
  rw [Int.add_mul, Int.one_mul] at above
  rw [Int.mul_sub, show n * (2 * b) = 2 * (n * b) from Int.mul_left_comm n 2 b] at *
  generalize n * b = p at below above ⊢
  constructor <;> omega

/-- R74: rounding to nearest, halves away from zero. -/
theorem roundDiv_nearest {a b : Int} (pos : 0 < b) :
    (2 * (a - roundDiv a b * b).natAbs : Int) ≤ b ∧
      ((2 * (a - roundDiv a b * b).natAbs : Int) = b → a.natAbs < (roundDiv a b * b).natAbs) := by
  unfold roundDiv
  split
  · obtain ⟨low, high⟩ := nearest_quotient (a := a) pos
    generalize (2 * a + b) / (2 * b) * b = p at low high ⊢
    omega
  · obtain ⟨low, high⟩ := nearest_quotient (a := -a) pos
    rw [Int.neg_mul]
    generalize (2 * -a + b) / (2 * b) * b = p at low high ⊢
    omega

/-! ### Force values -/

section
variable {k : Stand} {s : State} {force position href : Int}

theorem forceValue_unformed (unformed : (s.gauge.stands.get k).href = none ∨ s.measured (.position k) = none) :
    forceValue k force s = s := by
  unfold forceValue
  split
  · rename_i href position held measured
    rcases unformed with none | none
    · exact absurd held (by simp [none])
    · exact absurd measured (by simp [none])
  · rfl

/-- R73: a force value with a reference and a position. -/
theorem forceValue_formed (held : (s.gauge.stands.get k).href = some href) (measured : s.measured (.position k) = some position) :
    forceValue k force s =
      let e := gaugeError s k href force position
      if (s.gauge.stands.get k).st = .active then correct k e position (takeError k e s) else takeError k e s := by
  have gauge (e : Int) : (takeError k e s).gauge = s.gauge := by
    unfold takeError
    split <;> rfl
  simp only [forceValue, held, measured, gauge]
end

/-! ### Arrivals -/

/-- R71: a stand's record with its AGC state derived, by the state derived. -/
theorem setAgc_derived {k : Stand} {a : AgcStand} {t u : State} (derived : t = deriveAgc k (setAgc k a u)) :
    t = setAgc k { a with st := agcStateOf t k } u := by
  have st : agcStateOf t k = agcStateOf (setAgc k a u) k := by rw [derived, agcStateOf_deriveAgc]
  rw [st, derived, deriveAgc_setAgc]

/-- R68: a HEAD's arrival, by the target its coil's schedule gives. -/
theorem headAtGauge_eq (k : Stand) (g : Seg) (s : State) :
    headAtGauge k g s =
      let target := ((s.coilOf g.coilKey).bind Coil.schedule).map fun d => (d.stands.get k).h
      let a := s.gauge.stands.get k
      deriveAgc k (setAgc k
        { a with lockonCount := 0, href := if a.mode = .absolute ∧ target.isSome then target else a.href } s) := by
  unfold headAtGauge
  cases (s.coilOf g.coilKey).bind Coil.schedule <;> simp

/-- R69: a lock-on that cannot be made or fails takes no reference. -/
theorem lockOnRef_none {k : Stand} {g : Seg} {count : Nat} {s : State}
    (fails : (s.gauge.stands.get k).mode ≠ .lockon ∨ (s.gauge.stands.get k).href ≠ none ∨ count < s.gauge.lockonSeg ∨
      s.chan.biteIn.get k = false ∨ g.offGauge = true ∨ s.measured (.force k) = none ∨ s.measured (.position k) = none) :
    lockOnRef k g count s = none := by
  unfold lockOnRef
  dsimp only
  split
  · rename_i attempt
    obtain ⟨mode, unset, counted, bite, gauged⟩ := attempt
    split
    · rename_i force position forced placed
      simp only [Bool.not_eq_true'] at gauged
      simp [mode, unset, bite, forced, placed, gauged, Nat.not_lt.2 counted] at fails
    · rfl
  · rfl

theorem lockOnRef_some {k : Stand} {g : Seg} {count : Nat} {s : State} {force position : Int}
    (mode : (s.gauge.stands.get k).mode = .lockon) (unset : (s.gauge.stands.get k).href = none) (counted : s.gauge.lockonSeg ≤ count)
    (bite : s.chan.biteIn.get k = true) (gauged : g.offGauge = false) (forced : s.measured (.force k) = some force)
    (placed : s.measured (.position k) = some position) :
    lockOnRef k g count s = some (hGm (s.eng.get k).cfg force position) := by
  simp [lockOnRef, mode, unset, counted, bite, gauged, forced, placed]

end Sys2Proof.Machine
namespace Sys2Proof
open Machine Safety

/-- Settles O32: the error's three steps, and what a force value does with it. -/
theorem gaugeErrorOnForceValue : Obligations.GaugeErrorOnForceValue := by
  intro k force position href s c x e
  refine ⟨fun pos => ⟨stretch c force, ?_, ?_, rfl⟩, forceValue_unformed, fun held measured => ?_⟩
  · exact (roundDiv_nearest pos).1
  · exact (roundDiv_nearest pos).2
  · intro noted
    have formed := forceValue_formed (force := force) held measured
    refine ⟨fun idle => ?_, fun active => ?_⟩
    · rw [formed]
      exact if_neg idle
    · rw [formed]
      exact if_pos active

/-- Settles O35: the reference by the arriving record's kind. -/
theorem referenceFollowsCoil : Obligations.ReferenceFollowsCoil := by
  intro k g s a t target count
  refine ⟨fun head => ?_, fun tail => ?_, fun body => ⟨fun force position mode unset counted bite gauged forced placed => ?_,
    fun fails => ?_⟩⟩
  · refine setAgc_derived (a := { a with
      lockonCount := 0
      href := if a.mode = .absolute ∧ target.isSome then target else a.href }) ?_
    simp only [t, arrivalAtGauge, head, headAtGauge_eq]
    rfl
  · refine setAgc_derived (a := { a with lockonCount := 0, href := none, stepLimited := false, atLimit := false }) ?_
    simp only [t, arrivalAtGauge, tail, tailAtGauge, clearReference_eq, setAgc_setAgc]
    simp [a, withTrim]
  · refine setAgc_derived (a := { a with lockonCount := count, href := some (hGm (s.eng.get k).cfg force position) }) ?_
    have locked : lockOnRef k g (satAdd a.lockonCount 1) s = _ := lockOnRef_some mode unset counted bite gauged forced placed
    simp only [t, arrivalAtGauge, body, bodyAtGauge]
    rw [locked]
    rfl
  · have unlocked : lockOnRef k g (satAdd a.lockonCount 1) s = none := lockOnRef_none fails
    simp only [t, arrivalAtGauge, body, bodyAtGauge]
    rw [unlocked]
    rfl

end Sys2Proof
end

section
/-! Arrivals at the exit gauge (R36, R37): the record completed, the coil ended, and the record that arrives. -/
namespace Sys2Proof.Machine
open Sys2Proof.Safety

/-! ### The record completed -/

/-- R41: a record with its d_7 closed from point 7's accumulator. -/
def Acc.completed (a : Acc) (last : Seg) : Seg :=
  if a.count = 0 then last else { last with dev := last.dev.set .exit (some (clamp (-5000) 5000 (a.sum.tdiv a.count))) }

/-- R36: a coil with a completed record counted if it is OFF_GAUGE. -/
def Coil.counted (last : Seg) (c : Coil) : Coil :=
  if c.key = last.coilKey ∧ last.offGauge = true then { c with offCount := min 65535 (c.offCount + 1) } else c

theorem Acc.completed_eq (a : Acc) (last : Seg) : a.completed last = { last with dev := (a.completed last).dev } := by
  unfold completed
  split <;> rfl

theorem Coil.counted_key (last : Seg) (c : Coil) : (c.counted last).key = c.key := by
  unfold counted
  split <;> rfl

/-- R41: closing point 7 closes the record under it. -/
theorem closeAcc_exit (t : Tracking) : (t.closeAcc .exit).underExit = t.underExit.map t.acc.exit.completed := by
  cases under : t.underExit with
  | none =>
    rw [Tracking.closeAcc_untaken (.inl (by simp [Tracking.under, under]))]
    exact under
  | some last =>
    have id : t.under .exit = some last.id := by simp [Tracking.under, under]
    by_cases none : t.acc.exit.count = 0
    · rw [Tracking.closeAcc_untaken (t := t) (p := .exit) (.inr none)]
      simp [under, Acc.completed, none]
    · rw [Tracking.closeAcc_taken id (Nat.pos_of_ne_zero none)]
      simp [Tracking.mapSeg, under, Acc.completed, none]

section
variable {s : State}

theorem completeAtExit_none (empty : s.trk.underExit = none) :
    completeAtExit s = { s with trk := { s.trk.closeAcc .exit with underExit := none } } := by
  have closed : (s.trk.closeAcc .exit).underExit = none := by rw [closeAcc_exit, empty, Option.map_none]
  simp only [completeAtExit, closed]
  rw [← closed]
  rfl

/-- R36, step 2: the completed record is reported, counted and freed. -/
theorem completeAtExit_some {last : Seg} (under : s.trk.underExit = some last) :
    completeAtExit s = { s with
      trk := { s.trk.closeAcc .exit with underExit := none }.dropRefs last.id
      sched := { s.sched with coils := s.sched.coils.map (Coil.counted last) }
      link := (s.link.offer (.segment (s.trk.acc.exit.completed last))).pump } := by
  have closed : (s.trk.closeAcc .exit).underExit = some (s.trk.acc.exit.completed last) := by
    rw [closeAcc_exit, under, Option.map_some]
  have id : (s.trk.acc.exit.completed last).id = last.id := by rw [Acc.completed_eq]
  have key : (s.trk.acc.exit.completed last).coilKey = last.coilKey := by rw [Acc.completed_eq]
  have marked : (s.trk.acc.exit.completed last).offGauge = last.offGauge := by rw [Acc.completed_eq]
  simp only [completeAtExit, closed, id, key, marked]
  by_cases off : last.offGauge = true
  · have counted : Coil.counted last = atCoil last.coilKey fun c => { c with offCount := satAdd c.offCount 1 } := by
      funext c
      simp only [Coil.counted, off, and_true]
      rfl
    simp only [off, if_true, counted]
    rfl
  · have counted : Coil.counted last = fun c => c := funext fun c => if_neg fun both => off both.2
    simp only [off, counted, List.map_id']
    rfl

/-! ### The coil's end -/

theorem coilOf_key {key : Nat} {c : Coil} (found : s.coilOf key = some c) : c.key = key := by
  simpa using List.find?_some found

/-- R53: the coil with a key after a change of the table that keeps the keys. -/
theorem find?_map_coils {f : Coil → Coil} (kept : ∀ c, (f c).key = c.key) (coils : List Coil) (key : Nat) :
    ((coils.map f).find? fun c => c.key == key) = (coils.find? fun c => c.key == key).map f := by
  simp only [List.find?_map, Function.comp_def, kept]

/-- R62: what is changed of a coil whose record goes has no effect. -/
theorem filter_map_coils {f : Coil → Coil} {key : Nat} (others : ∀ c, c.key ≠ key → f c = c) (kept : ∀ c, (f c).key = c.key)
    (coils : List Coil) : ((coils.map f).filter fun c => c.key != key) = coils.filter fun c => c.key != key := by
  induction coils with
  | nil => rfl
  | cons c coils ih =>
    by_cases own : c.key = key
    · simp [kept, own, ih]
    · simp [others c own, own, ih]

/-- R37, R62: a coil's COIL_END, and its record removed. -/
theorem endCoil_eq {key : Nat} {c : Coil} (found : s.coilOf key = some c) :
    endCoil key s = { s with
      link := (s.link.offer (.coilEnd c.number c.schedule.isSome c.segCount c.offCount)).pump
      sched := { s.sched with coils := s.sched.coils.filter fun d => d.key != key } } := by
  have kept (d : Coil) : (atCoil key (fun d => { d with tail := d.tail.set .exit true }) d).key = d.key := by
    unfold atCoil
    split <;> rfl
  have ended : (setTailProgress key .exit s).coilOf key = some { c with tail := c.tail.set .exit true } := by
    rw [State.coilOf, setTailProgress, mapCoil_sched, find?_map_coils kept, show s.sched.coils.find? _ = some c from found,
      Option.map_some, atCoil, if_pos (coilOf_key found)]
  have left : (setTailProgress key .exit s).sched.coils.filter (fun d => d.key != key) =
      s.sched.coils.filter fun d => d.key != key :=
    filter_map_coils (fun d other => if_neg other) kept _
  simp only [endCoil, ended]
  rw [← left]
  rfl
end

/-! ### The record that arrives -/

section
variable {g : Seg} {s : State}

/-- R36: a HEAD or BODY becomes the record under point 7. -/
theorem arriveAtExit_onward (kind : g.kind ≠ .tail) :
    arriveAtExit g s =
      let u := completeAtExit s
      tripExitKind (some g.kind) (offerMonitor (completedAtExit s) { u with
        trk := { u.trk with underExit := some g }
        sched := { u.sched with coils := u.sched.coils.map fun c =>
          if c.key = g.coilKey ∧ g.kind = .head then { c with head := c.head.set .exit true } else c } }) := by
  unfold arriveAtExit
  dsimp only
  split
  · rename_i tail
    exact absurd tail kind
  · rename_i head
    simp only [head, and_true]
    rfl
  · rename_i body
    simp only [body, reduceCtorEq, and_false, if_false, List.map_id']
    rfl

/-- R37: a TAIL is freed and ends its coil. -/
theorem arriveAtExit_tail (kind : g.kind = .tail) :
    arriveAtExit g s =
      let u := completeAtExit s
      tripExitKind none (offerMonitor (completedAtExit s) (endCoil g.coilKey { u with trk := u.trk.dropRefs g.id })) := by
  simp only [arriveAtExit, kind]
  rfl

/-- R37: a TAIL whose coil's last record lies under point 7: that record is completed, and then the coil ends. -/
theorem endCoil_completed {last : Seg} {c : Coil} (under : s.trk.underExit = some last) (found : s.coilOf g.coilKey = some c)
    (own : last.coilKey = g.coilKey) :
    endCoil g.coilKey { completeAtExit s with trk := (completeAtExit s).trk.dropRefs g.id } = { s with
      trk := ({ s.trk.closeAcc .exit with underExit := none }.dropRefs last.id).dropRefs g.id
      sched := { s.sched with coils := s.sched.coils.filter fun d => d.key != g.coilKey }
      link := ((s.link.offer (.segment (s.trk.acc.exit.completed last))).pump.offer (.coilEnd c.number c.schedule.isSome c.segCount
        (if last.offGauge then min 65535 (c.offCount + 1) else c.offCount))).pump } := by
  have counted : c.counted last = { c with offCount := if last.offGauge then min 65535 (c.offCount + 1) else c.offCount } := by
    have key : c.key = last.coilKey := (coilOf_key found).trans own.symm
    by_cases off : last.offGauge = true
    · rw [Coil.counted, if_pos ⟨key, off⟩, if_pos off]
    · rw [Coil.counted, if_neg fun both => off both.2, if_neg off]
  have others (d : Coil) (other : d.key ≠ g.coilKey) : d.counted last = d := if_neg fun both => other (both.1.trans own)
  have found' : State.coilOf { completeAtExit s with trk := (completeAtExit s).trk.dropRefs g.id } g.coilKey = some (c.counted last) := by
    rw [State.coilOf, completeAtExit_some under]
    dsimp only
    rw [find?_map_coils (Coil.counted_key last), show s.sched.coils.find? _ = some c from found, Option.map_some]
  rw [endCoil_eq found', completeAtExit_some under]
  simp only [filter_map_coils others (Coil.counted_key last), counted]

/-- R163: a report waits while a frame is being sent. -/
theorem Link.offer_waits {l : Link} {r : Report} (busy : l.sending.isSome = true) (room : l.reports.length < 32) :
    (l.offer r).pump = { l with reports := l.reports ++ [r] } := by
  rw [offer_joins room, pump_busy (by exact busy)]

/-- R24: a freed record lies under no point. -/
theorem under_dropRefs {t : Tracking} (exit : t.underExit = none) (id : Nat) (p : Point) : (t.dropRefs id).under p ≠ some id := by
  have kept (r : Option Nat) : (if r = some id then none else r) ≠ some id := by
    split
    · exact nofun
    · assumption
  cases p with
  | entry => exact kept _
  | stand k => simp [Tracking.under, Tracking.dropRefs]
  | exit => simp [Tracking.under, Tracking.dropRefs, exit]

/-- R24: a record under no point stays so as another is freed. -/
theorem under_dropRefs_other {t : Tracking} {id : Nat} {p : Point} (clear : t.under p ≠ some id) (other : Nat) :
    (t.dropRefs other).under p ≠ some id := by
  have kept {r : Option Nat} (clear : r ≠ some id) : (if r = some other then none else r) ≠ some id := by
    split
    · exact nofun
    · exact clear
  cases p with
  | entry => exact kept clear
  | stand k =>
    simp only [Tracking.under, Tracking.dropRefs, PerStand.get_ofFn]
    exact kept clear
  | exit => exact clear
end

end Sys2Proof.Machine
namespace Sys2Proof
open Machine Safety

/-- Settles O27: the completed record, and the coil a TAIL ends. -/
theorem exitArrivalsCompleteRecords : Obligations.ExitArrivalsCompleteRecords := by
  intro s g a dropped closed headed completed counted coils gone
  have completion {last : Seg} (under : s.trk.underExit = some last) : completedAtExit s = some (completed last) := by
    rw [completedAtExit, closeAcc_exit, under]
    rfl
  have noCompletion (empty : s.trk.underExit = none) : completedAtExit s = none := by
    rw [completedAtExit, closeAcc_exit, empty, Option.map_none]
  refine ⟨fun kind empty => ?_, fun last kind under => ?_, fun c kind empty found => ?_, fun last c kind under found own => ?_,
    fun last c kind under found own sending room => ?_⟩
  · rw [arriveAtExit_onward kind, noCompletion empty, completeAtExit_none empty]
    rfl
  · rw [arriveAtExit_onward kind, completion under, completeAtExit_some under]
    simp only [List.map_map]
    rfl
  · rw [arriveAtExit_tail kind, noCompletion empty, completeAtExit_none empty]
    dsimp only
    rw [endCoil_eq (c := c) (by exact found)]
    rfl
  · intro off
    rw [arriveAtExit_tail kind, completion under]
    dsimp only
    rw [endCoil_completed under found own]
    rfl
  · intro off
    refine ⟨endCoil g.coilKey { completeAtExit s with trk := (completeAtExit s).trk.dropRefs g.id }, ?_, ?_⟩
    · rw [arriveAtExit_tail kind, completion under]
      rfl
    · rw [endCoil_completed under found own]
      refine ⟨?_, rfl, ?_, fun p => ⟨?_, ?_⟩, ?_⟩
      · dsimp only
        rw [Link.offer_waits (l := s.link) sending (by omega), Link.offer_waits (by exact sending) (by simp; omega), List.append_assoc]
        rfl
      · dsimp only
        rw [Tracking.closeAcc_eq]
        exact PerPoint.get_set_self s.trk.acc .exit { sum := 0, count := 0 }
      · exact under_dropRefs rfl g.id p
      · exact under_dropRefs_other (under_dropRefs rfl last.id p) g.id
      · rw [List.filter_map]
        refine congrArg (List.map Coil.key) (List.filter_congr fun d _ => ?_)
        by_cases own : d.key = g.coilKey <;> simp [own]

end Sys2Proof
end

section
/-! The retract procedure (R101) by its moves: those that end with ABORTED_TRIP, the slots they free, and the engine that opens the gap. -/
namespace Sys2Proof.Machine
open Sys2Proof.Safety

/-! ### Moves that end with ABORTED_TRIP -/

/-- R88: the slot table with a move's slot freed. -/
def freeTag (slots : PerTag (Option Stand)) (m : Move) : PerTag (Option Stand) :=
  match m.tag with
  | some x => slots.set x none
  | none => slots

/-- R88: the slot table with the slots of some moves freed. -/
def freeTags (moves : List Move) (slots : PerTag (Option Stand)) : PerTag (Option Stand) := moves.foldl freeTag slots

theorem freeSlot_split (m : Move) (s : State) : freeSlot m.tag s = { s with slots := freeTag s.slots m } := by
  unfold freeSlot freeTag
  cases m.tag <;> rfl

theorem freeTags_get (moves : List Move) (slots : PerTag (Option Stand)) (x : Tag) :
    (freeTags moves slots).get x = if ∃ m ∈ moves, m.tag = some x then none else slots.get x := by
  induction moves generalizing slots with
  | nil => simp [freeTags]
  | cons m moves ih =>
    refine (ih _).trans ?_
    unfold freeTag
    cases tag : m.tag with
    | none => simp [tag]
    | some y =>
      by_cases own : x = y
      · simp [tag, own]
      · simp [tag, PerTag.get_set, own, Ne.symm own]

/-- R101: the report of a move that ends with ABORTED_TRIP. -/
def Move.abortedReport (k : Stand) (ref : Int) (position : Option Int) (m : Move) : Report :=
  .moveDone k m.tag m.origin .abortedTrip m.clamped ref position

/-- R101: a stand's moves have ended with ABORTED_TRIP, its transmitter being busy. -/
def withAborted (k : Stand) (e : Engine) (moves : List Move) (s : State) : State :=
  { s with
    eng := s.eng.set k e
    slots := freeTags moves s.slots
    link := { s.link with reports := s.link.reports ++ moves.map (Move.abortedReport k (s.eng.get k).ref (s.measured (.position k))) } }

theorem withAborted_withAborted {k : Stand} {e e' : Engine} {first : List Move} {s : State} (ref : e.ref = (s.eng.get k).ref)
    (second : List Move) :
    withAborted k e' second (withAborted k e first s) = withAborted k e' (first ++ second) s := by
  simp only [withAborted, PerStand.get_set_self, PerStand.set_set, ref, freeTags, List.foldl_append, List.map_append, List.append_assoc]
  rfl

/-- R101, step 2: the pending moves, oldest first. -/
theorem flushPending_split {k : Stand} {moves : List Move} {s : State} (pending : (s.eng.get k).pending = moves)
    (busy : s.link.sending.isSome = true) (room : s.link.reports.length + moves.length ≤ 32) :
    flushPending k moves s = withAborted k { s.eng.get k with pending := [] } moves s := by
  induction moves generalizing s with
  | nil =>
    have same : { s.eng.get k with pending := [] } = s.eng.get k := by rw [← pending]
    simp [flushPending, withAborted, freeTags, same]
  | cons m moves ih =>
    have ended : reportMove k m .abortedTrip (freeSlot m.tag (setEngine k { s.eng.get k with pending := moves } s)) =
        withAborted k { s.eng.get k with pending := moves } [m] s := by
      rw [freeSlot_split, reportMove_queued (by exact busy) (by simp at room ⊢; omega)]
      simp [withAborted, freeTags, Move.abortedReport, setEngine]
      rfl
    rw [flushPending, ended, ih, withAborted_withAborted]
    · simp [withAborted]
    · rfl
    · simp [withAborted]
    · exact busy
    · simp [withAborted] at room ⊢
      omega

/-- R101: the moves of an active engine that end with a report. -/
def Activity.reported (act : Activity) : List Move :=
  (act.active?.map Active.move).toList.filter fun m => m.origin == .setup || m.origin == .link

/-- R101: the engine after its active move has ended, unless it is a RETRACT move. -/
def Engine.cleared (e : Engine) : Engine := if e.act = .idle ∨ e.act.isOf .retract = true then e else e.ended e.retracted

@[simp] theorem withAborted_engine (k : Stand) (e : Engine) (moves : List Move) (s : State) :
    (withAborted k e moves s).eng.get k = e := PerStand.get_set_self _ _ _

theorem setEngine_withAborted (k : Stand) (e e' : Engine) (moves : List Move) (s : State) :
    setEngine k e' (withAborted k e moves s) = withAborted k e' moves s := by
  simp only [setEngine, withAborted, PerStand.set_set]

theorem withAborted_nil (k : Stand) (e : Engine) (s : State) : withAborted k e [] s = setEngine k e s := by
  simp [withAborted, freeTags, setEngine]

/-- R101, steps 1 and 3: an active SETUP or LINK move at a stand that retracts ends with ABORTED_TRIP. -/
theorem abortActive_reported {k : Stand} {s : State} {a : Active} (retracting : s.retracting k = true)
    (busy : s.link.sending.isSome = true) (room : s.link.reports.length < 32)
    (active : (s.eng.get k).act.active? = some a) (origin : a.move.origin = .setup ∨ a.move.origin = .link) :
    abortActive k s = withAborted k ((s.eng.get k).ended (s.eng.get k).retracted) [a.move]
      { s with trips := (setLive (.position k) false s).trips } := by
  have abort : abortActive k s = finishMove k a.move .abortedTrip s := by
    rcases origin with setup | link
    · simp [abortActive, active, setup]
    · simp [abortActive, active, link]
  have kept : (a.move.origin == .retract) = false := by
    rcases origin with setup | link
    · rw [setup]; rfl
    · rw [link]; rfl
  rw [abort, finishMove_split, kept, Bool.or_false, Engine.served_kept (.inr (blocked_of_retracting retracting)), if_pos origin,
    Link.offer_waits busy room]
  rfl

/-- R101, step 3: an active FEEDBACK move is dropped. -/
theorem abortActive_feedback {k : Stand} {s : State} {a : Active} (active : (s.eng.get k).act.active? = some a)
    (origin : a.move.origin = .feedback) :
    abortActive k s = setEngine k ((s.eng.get k).ended (s.eng.get k).retracted)
      { s with trips := (setLive (.position k) false s).trips } := by
  simp [abortActive, active, origin, dropActive, clearPosErr, setEngine, setLive, setSource, Engine.ended]

/-- R101, steps 1 and 3: an engine that is IDLE or retracts already has no move to end. -/
theorem abortActive_kept {k : Stand} {s : State} (kept : (s.eng.get k).act = .idle ∨ (s.eng.get k).act.isOf .retract = true) :
    abortActive k s = s := by
  rcases kept with idle | retracts
  · simp [abortActive, idle, Activity.active?]
  · obtain ⟨a, active, origin⟩ := (isOf_iff _ _).1 retracts
    simp [abortActive, active, origin]

theorem Activity.active?_eq_none_iff (act : Activity) : act.active? = none ↔ act = .idle := by
  cases act <;> simp [Activity.active?]

/-- R101, steps 1 and 3: the active move. -/
theorem abortActive_split {k : Stand} {s : State} (retracting : s.retracting k = true) (busy : s.link.sending.isSome = true)
    (room : s.link.reports.length < 32) :
    abortActive k s = withAborted k (s.eng.get k).cleared (s.eng.get k).act.reported { s with
      trips := if (s.eng.get k).act = .idle ∨ (s.eng.get k).act.isOf .retract = true then s.trips
        else (setLive (.position k) false s).trips } := by
  have none : setEngine k (s.eng.get k) s = s := by rw [setEngine, PerStand.set_get]
  cases active : (s.eng.get k).act.active? with
  | none =>
    have idle := (Activity.active?_eq_none_iff _).1 active
    rw [abortActive_kept (.inl idle), Engine.cleared, if_pos (.inl idle), if_pos (.inl idle), Activity.reported, active]
    exact ((withAborted_nil k _ s).trans none).symm
  | some a =>
    have busyEngine : (s.eng.get k).act ≠ .idle := fun idle => by simp [idle, Activity.active?] at active
    have of (o : Origin) : (s.eng.get k).act.isOf o = (a.move.origin == o) := by simp [Activity.isOf, active]
    rw [Engine.cleared, Activity.reported, active, of]
    cases origin : a.move.origin with
    | setup =>
      rw [abortActive_reported retracting busy room active (.inl origin)]
      simp [busyEngine, origin]
    | link =>
      rw [abortActive_reported retracting busy room active (.inr origin)]
      simp [busyEngine, origin]
    | feedback =>
      rw [abortActive_feedback active origin]
      simp [busyEngine, origin, withAborted_nil]
    | retract =>
      rw [abortActive_kept (.inr (by rw [of, origin]; rfl))]
      simp [origin, withAborted_nil, none]

/-- R101: the RETRACT move of an engine. -/
def Engine.opening (e : Engine) : Move :=
  { origin := .retract, target := e.cfg.gapMax, step := e.cfg.retractRate, tag := none, clamped := false }

/-- R101: the engine after the retract procedure. -/
def Engine.retracts (e : Engine) : Engine :=
  if e.act.isOf .retract then { e with pending := [] } else ({ e.cleared with pending := [] } : Engine).started e.opening

theorem Engine.cleared_eq (e : Engine) :
    e.cleared = { e with act := e.cleared.act, settleLeft := e.cleared.settleLeft, posErr := e.cleared.posErr } := by
  unfold cleared
  split <;> rfl

theorem Engine.cleared_isOf (e : Engine) : e.cleared.act.isOf .retract = e.act.isOf .retract := by
  unfold cleared
  split
  · rfl
  · rename_i busy
    rw [not_or] at busy
    rw [Bool.eq_false_iff.2 busy.2]
    rfl

theorem Engine.started_kept (m : Move) (e : Engine) : (e.started m).pending = e.pending ∧ (e.started m).ref = e.ref := by
  unfold started
  split <;> exact ⟨rfl, rfl⟩

theorem Engine.retracts_starts {e : Engine} (other : e.act.isOf .retract = false) :
    e.retracts = ({ e.cleared with pending := [] } : Engine).started e.opening := by
  rw [retracts, other]
  rfl

theorem Engine.retracts_kept (e : Engine) : e.retracts.pending = [] ∧ e.retracts.ref = e.ref := by
  unfold retracts
  split
  · exact ⟨rfl, rfl⟩
  · obtain ⟨pending, ref⟩ := started_kept e.opening { e.cleared with pending := [] }
    refine ⟨pending, ref.trans ?_⟩
    rw [e.cleared_eq]

theorem startRetract_setEngine (k : Stand) (s : State) :
    startRetract k s = setEngine k
      (if (s.eng.get k).act.isOf .retract then s.eng.get k else (s.eng.get k).started (s.eng.get k).opening) s := by
  unfold startRetract
  dsimp only
  split
  · rw [setEngine, PerStand.set_get]
  · exact startMove_setEngine k _ s

/-- R101: the retract procedure, before the AGC state is derived. -/
theorem swept_split {k : Stand} {s : State} (retracting : s.retracting k = true) (busy : s.link.sending.isSome = true)
    (room : s.link.reports.length + (s.eng.get k).pending.length < 32) :
    swept k s = withAborted k (s.eng.get k).retracts ((s.eng.get k).act.reported ++ (s.eng.get k).pending) { s with
      trips := if (s.eng.get k).act = .idle ∨ (s.eng.get k).act.isOf .retract = true then s.trips
        else (setLive (.position k) false s).trips } := by
  have aborted := abortActive_split retracting busy (by omega)
  generalize (if (s.eng.get k).act = .idle ∨ (s.eng.get k).act.isOf .retract = true then s.trips
    else (setLive (.position k) false s).trips) = trips at aborted ⊢
  have engine : (abortActive k s).eng.get k = (s.eng.get k).cleared := by
    rw [aborted]
    exact PerStand.get_set_self _ _ _
  have pending : (s.eng.get k).cleared.pending = (s.eng.get k).pending := by rw [Engine.cleared_eq]
  have one : (s.eng.get k).act.reported.length ≤ 1 := by
    refine Nat.le_trans (List.length_filter_le _ _) ?_
    cases (s.eng.get k).act.active? <;> simp
  unfold swept
  dsimp only
  rw [flushPending_split rfl, startRetract_setEngine, engine, pending, aborted, withAborted_withAborted]
  · have cleared : ({ (s.eng.get k).cleared with pending := [] } : Engine).opening = (s.eng.get k).opening := by
      rw [Engine.cleared_eq]
      rfl
    rw [withAborted_engine, setEngine_withAborted, cleared, Engine.cleared_isOf, Engine.retracts]
    congr 1
    split
    · rename_i retracts
      rw [Engine.cleared, if_pos (.inr retracts)]
    · rfl
  · rw [Engine.cleared_eq]
  · rw [aborted]
    exact busy
  · rw [engine, pending, aborted]
    simp only [withAborted, List.length_append, List.length_map]
    omega

end Sys2Proof.Machine
namespace Sys2Proof
open Machine Safety

/-- Settles O44: the moves that end and the engine that opens the gap. -/
theorem retractSweepsEngine : Obligations.RetractSweepsEngine := by
  intro k s retracting opens busy room e aborted opening t
  have split := swept_split retracting busy room
  have finish : t = deriveAgc k (swept k s) := retract_eq k s
  have eng : t.eng.get k = e.retracts := by
    rw [finish, deriveAgc_eng, split, withAborted_engine]
  have derived : agcStateOf t k = agcStateOf (swept k s) k := by rw [finish, agcStateOf_deriveAgc]
  refine ⟨?_, ?_, ?_, fun already => ?_, fun idle => ?_, fun active other => ?_, fun x => ?_, fun j other => ?_, ?_⟩
  · rw [finish, split]
    rfl
  · rw [eng]
    exact e.retracts_kept.1
  · rw [eng]
    exact e.retracts_kept.2
  · rw [eng, Engine.retracts, if_pos already]
  · have other : e.act.isOf .retract = false := by rw [idle]; rfl
    rw [eng, Engine.retracts_starts other, Engine.cleared, if_pos (.inl idle)]
    exact started_iff opens _
  · rw [eng, Engine.retracts_starts other, Engine.cleared, if_neg (not_or.2 ⟨active, Bool.eq_false_iff.1 other⟩)]
    exact started_iff opens _
  · rw [finish, split]
    exact freeTags_get _ _ x
  · rw [finish, split]
    exact PerStand.get_set_ne _ _ other
  · rw [derived, finish, split]
    rfl

end Sys2Proof
end

section
/-! Edges, conditions and SET_SOURCE (R110 to R115, R122, R123). -/
namespace Sys2Proof.Machine
open Sys2Proof.Safety

/-! ### Edges -/

section
variable {x : Source} {s : State}

theorem edge_deaf (deaf : (s.trips.src.get x).masked = true ∨ (s.trips.src.get x).st = .pending) : edge x s = s := by
  unfold edge
  dsimp only
  rcases deaf with masked | pending
  · rw [if_pos masked]
  · rw [pending]
    split <;> rfl

/-- R113: an edge of a source in service sets the repeat mark of an EDGE source. -/
theorem edge_inService (unmasked : (s.trips.src.get x).masked = false) (service : (s.trips.src.get x).st = .inService) :
    edge x s = if (s.trips.src.get x).mode = .edge then setSource x { s.trips.src.get x with rep := true } s else s := by
  unfold edge
  simp only [unmasked, service]
  cases (s.trips.src.get x).mode <;> rfl

/-- R115: a source's report follows its priority, its action and its acted mark alone. -/
theorem reportTrip_eq (x : Source) (s : State) :
    reportTrip x s = report (.tripRaised x (s.acts.src.get x).priority (s.acts.src.get x).action
      (decide ((s.acts.src.get x).priority < s.acts.ceiling)) (s.acts.src.get x).acted) s := by
  rw [acts_src]
  rfl

/-- R114: a quiet source that is eligible is acted as it latches. -/
theorem latch_eligible (eligible : (s.trips.src.get x).priority < s.trips.ceiling) :
    latch x s = evalAttn (report (.tripRaised x (s.trips.src.get x).priority (s.trips.src.get x).action true true)
      (applyAction x (s.trips.src.get x).action (setSource x { s.trips.src.get x with st := .pending, acted := true } s))) := by
  have acted : act x (setSource x { s.trips.src.get x with st := .pending } s) =
      applyAction x (s.trips.src.get x).action (setSource x { s.trips.src.get x with st := .pending, acted := true } s) := by
    simp [act, setSource]
  have takes : (setSource x { s.trips.src.get x with st := .pending } s).eligible x = true := by
    simpa [State.eligible] using eligible
  have latched : latch x s = evalAttn (reportTrip x (act x (setSource x { s.trips.src.get x with st := .pending } s))) := by
    rw [latch, if_pos takes]
  rw [latched, acted, reportTrip_eq, acts_applyAction, acts_setSource]
  simp [SourceRec.core, State.acts, eligible]

/-- R114: a quiet source above the ceiling waits to be acted. -/
theorem latch_ineligible (above : s.trips.ceiling ≤ (s.trips.src.get x).priority) :
    latch x s = evalAttn (report (.tripRaised x (s.trips.src.get x).priority (s.trips.src.get x).action false
      (s.trips.src.get x).acted) (setSource x { s.trips.src.get x with st := .pending } s)) := by
  have waits : (setSource x { s.trips.src.get x with st := .pending } s).eligible x = false := by
    simpa [State.eligible] using above
  have latched : latch x s = evalAttn (reportTrip x (setSource x { s.trips.src.get x with st := .pending } s)) := by
    rw [latch, waits]
    rfl
  rw [latched, reportTrip, waits]
  simp

/-! ### Conditions -/

theorem condition_same {b : Bool} (same : (s.trips.src.get x).live = b) : condition x b s = s := if_pos same

theorem condition_false (live : (s.trips.src.get x).live = true) : condition x false s = setLive x false s := by
  simp [condition, live]

theorem condition_true (dead : (s.trips.src.get x).live = false) : condition x true s = edge x (setLive x true s) := by
  simp [condition, dead]
end

theorem exitGaugeCond_iff (t : Trips) :
    t.exitGaugeCond = true ↔ (t.inputs.chan.exit = .stale ∨ t.inputs.chan.exit = .fault) ∧
      ∃ kind, t.inputs.exitKind = some kind ∧ kind ≠ .tail := by
  have kinds (k : Option Kind) : ((k == some .head || k == some .body) = true) ↔ ∃ kind, k = some kind ∧ kind ≠ .tail := by
    cases k with
    | none => simp
    | some kind => cases kind <;> simp
  rw [Trips.exitGaugeCond, Bool.and_eq_true, kinds, Bool.or_eq_true, beq_iff_eq, beq_iff_eq]

theorem entryGaugeCond_iff (t : Trips) :
    t.entryGaugeCond = true ↔ (t.inputs.chan.entry = .stale ∨ t.inputs.chan.entry = .fault) ∧ t.inputs.strip = true := by
  simp [Trips.entryGaugeCond]

theorem channelFaultCond_iff (t : Trips) :
    t.channelFaultCond = true ↔ ∃ k, t.inputs.chan.force.get k = .fault ∨ t.inputs.chan.position.get k = .fault := by
  simp only [Trips.channelFaultCond, PerStand.toList_eq_map_get, List.any_append, List.any_map, Bool.or_eq_true, List.any_eq_true,
    Function.comp_apply, beq_iff_eq, Stand.mem_all, true_and, exists_or]

/-! ### SET_SOURCE -/

section
variable {f : SourceFields} {x : Source} {mode : SrcMode} {action : Action} {masked : Bool} {s : State}

/-- R122: the priority a source is stored with. -/
def storedPriority (action : Action) (sent : Nat) : Nat :=
  match action with
  | .stop => 0
  | .retract => min 1 sent
  | _ => min 7 sent

theorem storedSource_eq (r : SourceRec) (mode : SrcMode) (sent : Nat) (action : Action) (masked : Bool) :
    storedSource r mode sent action masked = { r with
      mode := mode
      priority := storedPriority action sent
      action := action
      masked := masked && (action == .alarm || action == .hold) } := by
  have urgent : min 1 (min 7 sent) = min 1 sent := by omega
  cases action <;> simp [storedSource, storedPriority, urgent]

theorem answerSetSource_busy (named : Source.ofNat? f.source.toNat = some x) (moded : srcMode? f.mode = some mode)
    (acted : action? f.action = some action) (hidden : yesNo? f.masked = some masked) (busy : (s.trips.src.get x).st ≠ .quiet) :
    answerSetSource f s = refuse .busy s := by
  simp only [answerSetSource, named, moded, acted, hidden, if_pos busy]

theorem answerSetSource_quiet (named : Source.ofNat? f.source.toNat = some x) (moded : srcMode? f.mode = some mode)
    (acted : action? f.action = some action) (hidden : yesNo? f.masked = some masked) (quiet : (s.trips.src.get x).st = .quiet) :
    answerSetSource f s =
      let r' := storedSource (s.trips.src.get x) mode f.priority.toNat action masked
      { state := setSource x r' s
        status := okOr (r'.priority != f.priority.toNat || r'.masked != masked)
        content := [r'.mode.code] ++ be1 r'.priority ++ [r'.action.code, bit r'.masked]
        followUp := fun s => evalAttn (latchCheck s x) } := by
  simp only [answerSetSource, named, moded, acted, hidden, quiet]
  rfl

theorem srcMode?_eq_none {b : Byte} (high : 1 < b.toNat) : srcMode? b = none := by
  unfold srcMode?
  split <;> simp_all

theorem action?_eq_none {b : Byte} (high : 3 < b.toNat) : action? b = none := by
  unfold action?
  split <;> simp_all

theorem answerSetSource_range (code : 23 < f.source.toNat ∨ 1 < f.mode.toNat ∨ 3 < f.action.toNat ∨ 1 < f.masked.toNat) (s : State) :
    answerSetSource f s = refuse .range s := by
  unfold answerSetSource
  split
  · rename_i x mode action masked named moded acted hidden
    rcases code with source | mode | action | masked
    · exact absurd named (by simp [Source.ofNat?_eq_none source])
    · exact absurd moded (by simp [srcMode?_eq_none mode])
    · exact absurd acted (by simp [action?_eq_none action])
    · exact absurd hidden (by simp [yesNo?_eq_none masked])
  · rfl

theorem srcMode?_code {b : Byte} (code : srcMode? b = some mode) : mode.code = b := by
  unfold srcMode? at code
  split at code
  · rename_i zero
    rw [← Option.some.inj code]
    exact (BitVec.eq_of_toNat_eq zero).symm
  · rename_i one
    rw [← Option.some.inj code]
    exact (BitVec.eq_of_toNat_eq one).symm
  · exact absurd code nofun

theorem action?_code {b : Byte} (code : action? b = some action) : action.code = b := by
  unfold action? at code
  split at code
  · rename_i zero
    rw [← Option.some.inj code]
    exact (BitVec.eq_of_toNat_eq zero).symm
  · rename_i one
    rw [← Option.some.inj code]
    exact (BitVec.eq_of_toNat_eq one).symm
  · rename_i two
    rw [← Option.some.inj code]
    exact (BitVec.eq_of_toNat_eq two).symm
  · rename_i three
    rw [← Option.some.inj code]
    exact (BitVec.eq_of_toNat_eq three).symm
  · exact absurd code nofun
end

end Sys2Proof.Machine
namespace Sys2Proof
open Machine Safety

/-- Settles O45: an edge by the source's state, and the conditions handed on. -/
theorem edgesLatchSources : Obligations.EdgesLatchSources := by
  intro x s r
  refine ⟨edge_deaf, edge_inService, fun unmasked quiet => ⟨fun lower => ?_, fun above => ?_⟩, rfl, fun b same => condition_same same,
    condition_false, condition_true, ?_⟩
  · rw [edge_quiet unmasked quiet]
    exact latch_eligible lower
  · rw [edge_quiet unmasked quiet]
    exact latch_ineligible above
  · intro t c
    have inputs : t.inputs = s.trips.inputs := derivedConditions_inputs s
    obtain ⟨exitGauge, entryGauge, channelFault⟩ := derived_derivedConditions s
    refine ⟨inputs, ?_, ?_, ?_⟩
    · rw [exitGauge, exitGaugeCond_congr inputs]
      exact exitGaugeCond_iff _
    · rw [entryGauge, entryGaugeCond_congr inputs]
      exact entryGaugeCond_iff _
    · rw [channelFault, channelFaultCond_congr inputs]
      exact channelFaultCond_iff _

/-- Settles O49: the checks, the stored record, and the latching check after the reply. -/
theorem setSourceIsCheckedThenLatches : Obligations.SetSourceIsCheckedThenLatches := by
  intro tag f s may h
  refine ⟨fun code => request_replied may (answerSetSource_range code _), fun x mode action masked named moded acted code => ?_⟩
  intro r priority hidden r' same
  have source : h.trips.src.get x = r := by rw [show h.trips = s.trips from heard_trips s]
  refine ⟨fun busy => request_replied may (answerSetSource_busy named moded acted code (by rwa [source])), fun quiet => ?_⟩
  intro reply answered
  have record : storedSource r mode f.priority.toNat action masked = r' := storedSource_eq r mode _ action masked
  have status : okOr (r'.priority != f.priority.toNat || r'.masked != masked) = if same then .ok else .adjusted := by
    rw [← okOr_not]
    congr 1
    rw [Bool.eq_iff_iff]
    simp [same, r', priority, bne_iff_ne]
  have content : [r'.mode.code] ++ be1 r'.priority ++ [r'.action.code, bit r'.masked] = reply.content := by
    rw [show r'.mode.code = f.mode from srcMode?_code moded, show r'.action.code = f.action from action?_code acted]
    rfl
  have ran : exec (.setSource tag f) s = .next (evalAttn (latchCheck answered x)) := by
    refine congrArg Host.Outcome.next ((request_answered may).trans ?_)
    rw [answerSetSource_quiet named moded acted code (by rwa [source])]
    dsimp only
    rw [show (heard s).trips.src.get x = r from source, record, status, content]
  have stored : answered.trips.src.get x = r' := PerSource.get_set_self _ x r'
  rw [ran, latchCheck_eq, stored]
  refine ⟨fun shown level live => ?_, fun off => ?_⟩
  · rw [if_pos ⟨shown, level, quiet, live⟩]
  · rw [if_neg]
    rintro ⟨shown, level, -, live⟩
    rcases off with masked | edge | dead
    · exact absurd (masked.symm.trans shown) nofun
    · exact absurd (edge.symm.trans level) nofun
    · exact absurd (dead.symm.trans live) nofun

end Sys2Proof
end

section
/-! Applying and releasing an action, stand by stand (R129, R130, R132): each stand's engine follows its own action set. -/
namespace Sys2Proof.Machine
open Sys2Proof.Safety

/-! ### The engine of a stand that holds or retracts -/

/-- R97: the engine whose active move is held, unless it is a RETRACT move. -/
def Engine.heldNow (e : Engine) : Engine :=
  if e.act.isOf .retract then e
  else
    match e.act with
    | .ramping a => { e with act := .held a .ramping, settleLeft := none }
    | .settling a => { e with act := .held a .settling, settleLeft := none }
    | .idle | .held _ _ => e

theorem holdActive_setEngine (k : Stand) (s : State) : holdActive k s = setEngine k (s.eng.get k).heldNow s := by
  have same : s = setEngine k (s.eng.get k) s := by rw [setEngine, PerStand.set_get]
  unfold holdActive Engine.heldNow
  dsimp only
  split
  · exact same
  · cases act : (s.eng.get k).act with
    | idle => simpa [act] using same
    | ramping a => simp
    | settling a => simp
    | held a p => simpa [act] using same

theorem abortActive_eng {k : Stand} {s : State} (retracting : s.retracting k = true) :
    (abortActive k s).eng = s.eng.set k (s.eng.get k).cleared := by
  have same : s.eng = s.eng.set k (s.eng.get k) := (PerStand.set_get _ _).symm
  by_cases kept : (s.eng.get k).act = .idle ∨ (s.eng.get k).act.isOf .retract = true
  · rw [abortActive_kept kept, Engine.cleared, if_pos kept]
    exact same
  · rw [Engine.cleared, if_neg kept]
    rw [not_or] at kept
    obtain ⟨busy, other⟩ := kept
    obtain ⟨a, active⟩ := Option.ne_none_iff_exists'.1 fun none => busy ((Activity.active?_eq_none_iff _).1 none)
    have ended (st : MoveStatus) (kept : (a.move.origin == .retract) = false) :
        (finishMove k a.move st s).eng = s.eng.set k ((s.eng.get k).ended (s.eng.get k).retracted) := by
      rw [finishMove_split, kept, Bool.or_false, Engine.served_kept (.inr (blocked_of_retracting retracting))]
    cases origin : a.move.origin with
    | setup =>
      simp only [abortActive, active, origin]
      exact ended _ (by rw [origin]; rfl)
    | link =>
      simp only [abortActive, active, origin]
      exact ended _ (by rw [origin]; rfl)
    | feedback => rw [abortActive_feedback active origin, setEngine_eng]
    | retract => exact absurd ((isOf_iff _ _).2 ⟨a, active, origin⟩) other

/-- R101: the engine of the retract procedure, from the engine without its moves. -/
theorem Engine.retracts_eq (e : Engine) :
    (let left : Engine := { e.cleared with pending := [] }
     if left.act.isOf .retract then left else left.started left.opening) = e.retracts := by
  have opening : ({ e.cleared with pending := [] } : Engine).opening = e.opening := by
    rw [e.cleared_eq]
    rfl
  dsimp only
  rw [opening, cleared_isOf, retracts]
  split
  · rename_i retracts
    rw [cleared, if_pos (.inr retracts)]
  · rfl

theorem retract_eng {k : Stand} {s : State} (retracting : s.retracting k = true) :
    (retract k s).eng = s.eng.set k (s.eng.get k).retracts := by
  refine PerStand.eq_of_get fun j => ?_
  by_cases other : j = k
  · subst other
    have aborted : (abortActive j s).eng.get j = _ := (congrArg (fun e => e.get j) (abortActive_eng retracting)).trans
      (PerStand.get_set_self _ _ _)
    have flushed := (flushPending_engine j _ (abortActive j s) rfl).1
    rw [aborted] at flushed
    rw [retract_eq, deriveAgc_eng, swept, startRetract_setEngine, setEngine_eng, PerStand.get_set_self, PerStand.get_set_self,
      aborted, flushed, ← Engine.retracts_eq]
  · rw [PerStand.get_set_ne _ _ other, retract_eq, deriveAgc_eng]
    exact (onlyEngine_swept k s).eng j other

/-! ### The tracking unit through a retract procedure -/

theorem finishMove_trk (k : Stand) (m : Move) (st : MoveStatus) (s : State) : (finishMove k m st s).trk = s.trk := by
  rw [finishMove_split]

theorem retract_trk (k : Stand) (s : State) : (retract k s).trk = s.trk := by
  have aborted : (abortActive k s).trk = s.trk := by
    unfold abortActive
    split
    · rfl
    · split
      · exact finishMove_trk k _ _ s
      · exact finishMove_trk k _ _ s
      · rfl
      · rfl
  have flushed (l : List Move) (u : State) : (flushPending k l u).trk = u.trk := by
    induction l generalizing u with
    | nil => rfl
    | cons m l ih =>
      refine (ih _).trans ?_
      rw [freeSlot_split]
      rfl
  rw [retract_eq, swept, startRetract_setEngine]
  exact (flushed _ _).trans aborted

/-! ### One stand -/

/-- R129: the engine of a stand as an action is applied there. -/
def Engine.under (a : Action) (retracting : Bool) (e : Engine) : Engine :=
  if retracting then e
  else
    match a with
    | .alarm => e
    | .hold => e.heldNow
    | .retract | .stop => e.retracts

theorem Engine.retracts_isOf (e : Engine) : e.retracts.act.isOf .retract = true := by
  unfold retracts
  split
  · assumption
  · unfold started
    split <;> rfl

theorem Engine.under_retracting (a : Action) (e : Engine) : e.under a true = e := rfl

/-- R129: an applied action at one stand, by whether the stand retracts already and by the action. -/
theorem applyAt_eq (x : Source) (a : Action) (s : State) (k : Stand) :
    applyAt x a s k =
      let entered := setActions k (s.ilk.sets.get k ++ [{ source := x, action := a }]) s
      let blocks (u : State) : State := if s.blocked k then u else deriveAgc k u
      if s.retracting k then entered
      else match a with
        | .alarm => entered
        | .hold => blocks (holdActive k entered)
        | .retract | .stop => blocks (retract k (markUnderStand k entered)) := by
  have had (retracting : s.retracting k = true) : s.blocked k = true := blocked_of_retracting retracting
  have entered : (setActions k (s.ilk.sets.get k ++ [{ source := x, action := a }]) s).retracting k =
      (s.retracting k || a.isRetractType) := by
    simp [State.retracting]
  unfold applyAt
  dsimp only
  by_cases retracting : s.retracting k = true
  · simp [retracting, had retracting, entered]
  · rw [Bool.not_eq_true] at retracting
    cases a with
    | alarm => simp [retracting, Action.isRetractType, Action.isBlocking]
    | hold =>
      cases blocked : s.blocked k <;> simp [retracting, entered, Action.isRetractType, Action.isBlocking]
    | retract | stop =>
      cases blocked : s.blocked k <;> simp [retracting, Action.isRetractType, Action.isBlocking]

/-- R129: an applied action's engine. -/
theorem applyAt_eng (x : Source) (a : Action) (s : State) (k : Stand) :
    (applyAt x a s k).eng = s.eng.set k ((s.eng.get k).under a (s.retracting k)) := by
  have same : s.eng = s.eng.set k (s.eng.get k) := (PerStand.set_get _ _).symm
  have blocks (u : State) : (if s.blocked k then u else deriveAgc k u).eng = u.eng := by split <;> rfl
  have marked (u : State) : (markUnderStand k u).ilk = u.ilk ∧ (markUnderStand k u).eng = u.eng := by
    unfold markUnderStand
    split <;> exact ⟨rfl, rfl⟩
  rw [applyAt_eq]
  dsimp only
  by_cases retracting : s.retracting k = true
  · rw [if_pos retracting, retracting]
    exact same
  · rw [if_neg retracting, Bool.eq_false_iff.2 retracting]
    have swept (b : Action) (kind : b.isRetractType = true) :
        (retract k (markUnderStand k (setActions k (s.ilk.sets.get k ++ [{ source := x, action := b }]) s))).eng =
          s.eng.set k (s.eng.get k).retracts := by
      obtain ⟨ilk, eng⟩ := marked (setActions k (s.ilk.sets.get k ++ [{ source := x, action := b }]) s)
      rw [retract_eng, eng]
      · rfl
      · rw [retracting_congr (t := setActions k (s.ilk.sets.get k ++ [{ source := x, action := b }]) s) (by rw [ilk])]
        simp [State.retracting, kind]
    cases a with
    | alarm => exact same
    | hold =>
      dsimp only
      rw [blocks, holdActive_setEngine]
      rfl
    | retract => exact (blocks _).trans (swept _ rfl)
    | stop => exact (blocks _).trans (swept _ rfl)

theorem releaseAt_eng (x : Source) (s : State) (k : Stand) :
    (releaseAt x s k).eng =
      s.eng.set k ((s.eng.get k).served (((s.ilk.sets.get k).filter fun e => e.source != x).any fun e => e.action.isBlocking)) := by
  have blocked : (setActions k ((s.ilk.sets.get k).filter fun e => e.source != x) s).blocked k =
      ((s.ilk.sets.get k).filter fun e => e.source != x).any fun e => e.action.isBlocking := by
    simp [State.blocked]
  rw [← blocked, releaseAt]
  split
  · rename_i shut
    rw [Engine.served_kept (.inr shut), PerStand.set_get]
    rfl
  · rw [deriveAgc_eng, checkPending_setEngine]
    rfl

/-! ### Stand by stand -/

/-- Operations on one stand after another: each engine follows its own stand's action set. -/
theorem eng_foldl {op : State → Stand → State} (f : List Entry → List Entry) (F : List Entry → Engine → Engine)
    (sets : ∀ s k, (op s k).ilk.sets = s.ilk.sets.set k (f (s.ilk.sets.get k)))
    (eng : ∀ s k, (op s k).eng = s.eng.set k (F (s.ilk.sets.get k) (s.eng.get k))) {l : List Stand} (once : l.Nodup)
    (s : State) (k : Stand) :
    (l.foldl op s).eng.get k = if k ∈ l then F (s.ilk.sets.get k) (s.eng.get k) else s.eng.get k := by
  induction l generalizing s with
  | nil => rfl
  | cons j l ih =>
    obtain ⟨fresh, once⟩ := List.nodup_cons.1 once
    rw [List.foldl_cons, ih once, sets, eng]
    by_cases here : k = j
    · subst here
      simp [fresh]
    · simp only [List.mem_cons, here, false_or, PerStand.get_set_ne _ _ here]

theorem applyAction_eq (x : Source) (a : Action) (s : State) :
    applyAction x a s = (scope x).foldl (applyAt x a) { s with ilk := { s.ilk with stop := s.ilk.stop || a == .stop } } := by
  have line : (if a = .stop then { s with ilk := { s.ilk with stop := true } } else s) =
      { s with ilk := { s.ilk with stop := s.ilk.stop || a == .stop } } := by
    by_cases stop : a = .stop
    · simp [stop]
    · rw [if_neg stop, beq_false_of_ne stop, Bool.or_false]
  rw [applyAction, line]

/-- R129: an applied action's engines. -/
theorem applyAction_eng (x : Source) (a : Action) (s : State) (k : Stand) :
    (applyAction x a s).eng.get k =
      if k ∈ scope x then (s.eng.get k).under a (s.retracting k) else s.eng.get k := by
  rw [applyAction_eq]
  exact eng_foldl (fun es => es ++ [{ source := x, action := a }])
    (fun es e => e.under a (es.any fun y => y.action.isRetractType)) (fun s k => congrArg Acts.sets (acts_applyAt x a s k))
    (applyAt_eng x a) (scope_nodup x) _ k

theorem applyAction_sets (x : Source) (a : Action) (s : State) (k : Stand) :
    (applyAction x a s).ilk.sets.get k =
      if k ∈ scope x then s.ilk.sets.get k ++ [{ source := x, action := a }] else s.ilk.sets.get k := by
  have sets := congrArg (fun t => t.sets.get k) (acts_applyAction x a s)
  exact sets.trans (PerStand.get_ofFn _ k)

theorem applyAction_ilk (x : Source) (a : Action) (s : State) :
    (applyAction x a s).ilk = { s.ilk with sets := (applyAction x a s).ilk.sets, stop := s.ilk.stop || a == .stop } := by
  have stop : (applyAction x a s).ilk.stop = (s.ilk.stop || a == .stop) := congrArg Acts.stop (acts_applyAction x a s)
  rw [← stop]
  exact ilk_of_calm (calm_applyAction s x a)

theorem releaseAction_sets (x : Source) (s : State) (k : Stand) :
    (releaseAction x s).ilk.sets.get k =
      if k ∈ scope x then (s.ilk.sets.get k).filter (fun e => e.source != x) else s.ilk.sets.get k := by
  have sets := congrArg (fun t => t.sets.get k) (acts_releaseAction x s)
  exact sets.trans (PerStand.get_ofFn _ k)

theorem releaseAction_ilk (x : Source) (s : State) :
    (releaseAction x s).ilk = { s.ilk with sets := (releaseAction x s).ilk.sets } := by
  have stop : (releaseAction x s).ilk.stop = s.ilk.stop := congrArg Acts.stop (acts_releaseAction x s)
  have ilk := ilk_of_calm (calm_releaseAction s x)
  rw [stop] at ilk
  exact ilk

/-- R130: a released source's engines, by the sets that are left. -/
theorem releaseAction_eng (x : Source) (s : State) (k : Stand) :
    (releaseAction x s).eng.get k =
      if k ∈ scope x then (s.eng.get k).served ((releaseAction x s).blocked k) else s.eng.get k := by
  have engine := eng_foldl (fun es => es.filter fun e => e.source != x)
    (fun es e => e.served ((es.filter fun y => y.source != x).any fun y => y.action.isBlocking))
    (fun s k => congrArg Acts.sets (acts_releaseAt x s k)) (releaseAt_eng x) (scope_nodup x) s k
  refine engine.trans ?_
  split
  · rename_i inScope
    rw [State.blocked, releaseAction_sets, if_pos inScope]
  · rfl

/-! ### Marks -/

/-- R46, R131: every record in use with an id is marked OFF_GAUGE. -/
def OffGaugeMarked (id : Nat) (s : State) : Prop := ∀ g ∈ s.trk.segs, g.id = id → g.offGauge = true

theorem OffGaugeMarked.congr {id : Nat} {s t : State} (same : t.trk = s.trk) (h : OffGaugeMarked id s) : OffGaugeMarked id t := by
  rwa [OffGaugeMarked, same]

theorem markUnderStand_marks (k : Stand) (s : State) :
    (markUnderStand k s).trk.underStand = s.trk.underStand ∧
      (∀ id, OffGaugeMarked id s → OffGaugeMarked id (markUnderStand k s)) ∧
      ∀ id, s.trk.underStand.get k = some id → OffGaugeMarked id (markUnderStand k s) := by
  unfold markUnderStand
  split
  · rename_i marked under
    have segs : (markOffGauge marked s).trk.segs = _ := Tracking.segs_mapSeg s.trk marked fun g => { g with offGauge := true }
    refine ⟨rfl, fun id h g here own => ?_, fun id there g here own => ?_⟩
    · rw [segs, List.mem_map] at here
      obtain ⟨r, inUse, rfl⟩ := here
      by_cases this : r.id = marked
      · simp [this]
      · simp only [if_neg this] at own ⊢
        exact h r inUse own
    · rw [segs, List.mem_map] at here
      obtain ⟨r, inUse, rfl⟩ := here
      obtain rfl := Option.some.inj (under.symm.trans there)
      by_cases this : r.id = marked
      · simp [this]
      · simp only [if_neg this] at own
        exact absurd own this
  · rename_i none
    exact ⟨rfl, fun _ h => h, fun id there => absurd (none.symm.trans there) nofun⟩

/-- R129, R131: what applying an action at one stand does to the records' marks. -/
theorem applyAt_marks (x : Source) (a : Action) (s : State) (k : Stand) :
    (applyAt x a s k).trk.underStand = s.trk.underStand ∧
      (∀ id, OffGaugeMarked id s → OffGaugeMarked id (applyAt x a s k)) ∧
      (s.retracting k = false → a.isRetractType = true →
        ∀ id, s.trk.underStand.get k = some id → OffGaugeMarked id (applyAt x a s k)) := by
  have blocks (u : State) : (if s.blocked k then u else deriveAgc k u).trk = u.trk := by split <;> rfl
  have kept {u : State} (same : u.trk = s.trk) (quiet : s.retracting k = true ∨ a.isRetractType = false) :
      u.trk.underStand = s.trk.underStand ∧ (∀ id, OffGaugeMarked id s → OffGaugeMarked id u) ∧
        (s.retracting k = false → a.isRetractType = true →
          ∀ id, s.trk.underStand.get k = some id → OffGaugeMarked id u) := by
    refine ⟨congrArg Tracking.underStand same, fun _ h => h.congr same, fun free kind => ?_⟩
    rcases quiet with retracting | other
    · exact absurd (retracting.symm.trans free) nofun
    · exact absurd (other.symm.trans kind) nofun
  have swept {u : State}
      (same : u.trk = (markUnderStand k (setActions k (s.ilk.sets.get k ++ [{ source := x, action := a }]) s)).trk) :
      u.trk.underStand = s.trk.underStand ∧ (∀ id, OffGaugeMarked id s → OffGaugeMarked id u) ∧
        (s.retracting k = false → a.isRetractType = true →
          ∀ id, s.trk.underStand.get k = some id → OffGaugeMarked id u) := by
    obtain ⟨under, stays, marks⟩ := markUnderStand_marks k (setActions k (s.ilk.sets.get k ++ [{ source := x, action := a }]) s)
    exact ⟨(congrArg Tracking.underStand same).trans under, fun id h => (stays id h).congr same,
      fun _ _ id there => (marks id there).congr same⟩
  rw [applyAt_eq]
  dsimp only
  by_cases retracting : s.retracting k = true
  · rw [if_pos retracting]
    exact kept rfl (.inl retracting)
  · rw [if_neg retracting]
    cases a with
    | alarm => exact kept rfl (.inr rfl)
    | hold =>
      refine kept ((blocks _).trans ?_) (.inr rfl)
      rw [holdActive_setEngine]
      rfl
    | retract => exact swept ((blocks _).trans (retract_trk _ _))
    | stop => exact swept ((blocks _).trans (retract_trk _ _))

theorem applyAts_mark {x : Source} {a : Action} {k : Stand} {id : Nat} (kind : a.isRetractType = true) {l : List Stand}
    (once : l.Nodup) (inScope : k ∈ l) {s : State} (free : s.retracting k = false) (under : s.trk.underStand.get k = some id) :
    OffGaugeMarked id (l.foldl (applyAt x a) s) := by
  have stays (l : List Stand) {u : State} (h : OffGaugeMarked id u) : OffGaugeMarked id (l.foldl (applyAt x a) u) := by
    induction l generalizing u with
    | nil => exact h
    | cons j l ih => exact ih ((applyAt_marks x a u j).2.1 id h)
  induction l generalizing s with
  | nil => exact absurd inScope List.not_mem_nil
  | cons j l ih =>
    obtain ⟨underStand, -, marks⟩ := applyAt_marks x a s j
    rw [List.foldl_cons]
    by_cases here : k = j
    · subst here
      exact stays l (marks free kind id under)
    · have sets : (applyAt x a s j).ilk.sets = _ := congrArg Acts.sets (acts_applyAt x a s j)
      refine ih (List.nodup_cons.1 once).2 ((List.mem_cons.1 inScope).resolve_left here) ?_ (by rw [underStand, under])
      rw [State.retracting, sets, PerStand.get_set_ne _ _ here]
      exact free

/-- R129: an ALARM is its entries alone. -/
theorem applyAts_alarm (x : Source) (l : List Stand) (s : State) :
    l.foldl (applyAt x .alarm) s = { s with ilk := { s.ilk with sets := (l.foldl (applyAt x .alarm) s).ilk.sets } } := by
  induction l generalizing s with
  | nil => rfl
  | cons k l ih =>
    have entered : applyAt x .alarm s k = setActions k (s.ilk.sets.get k ++ [{ source := x, action := .alarm }]) s := by
      rw [applyAt_eq]
      exact ite_self _
    rw [List.foldl_cons, ih, entered]
    rfl

end Sys2Proof.Machine
namespace Sys2Proof
open Machine Safety

/-- Settles O46: sets, line and engines after an action is applied and after it is released. -/
theorem actionsEnterAndLeaveSets : Obligations.ActionsEnterAndLeaveSets := by
  intro x a s t u
  have filters (es : List Entry) : es.filter (fun e => e.source ≠ x) = es.filter fun e => e.source != x :=
    List.filter_congr fun e _ => by by_cases own : e.source = x <;> simp [own]
  have under (k : Stand) : t.eng.get k = _ := applyAction_eng x a s k
  have left (k : Stand) : u.eng.get k = _ := releaseAction_eng x s k
  refine ⟨applyAction_sets x a s, applyAction_ilk x a s, applyAction_eq x a s, fun k => applyAt_eq x a s k, fun alarm => ?_,
    fun k quiet => ?_, fun k inScope free => ⟨fun hold => ?_, fun kind => ?_⟩, fun k => ?_, releaseAction_ilk x s, fun k quiet => ?_,
    fun k m rest inScope opened idle pending moves => ?_⟩
  · subst alarm
    exact applyAts_alarm x (scope x) s
  · rw [under]
    rcases quiet with outside | retracting
    · rw [if_neg outside]
    · rw [retracting, Engine.under_retracting, ite_self]
  · rw [under, if_pos inScope, free, hold, holdActive_setEngine, setEngine_eng, PerStand.get_set_self]
    rfl
  · have retractType : a.isRetractType = true := by
      rcases kind with rfl | rfl <;> rfl
    have engine : t.eng.get k = (s.eng.get k).retracts := by
      rw [under, if_pos inScope, free]
      rcases kind with rfl | rfl <;> rfl
    rw [engine]
    refine ⟨Engine.retracts_isOf _, (Engine.retracts_kept _).1, fun id g there here own => ?_⟩
    have marked : OffGaugeMarked id t := by
      rw [show t = _ from applyAction_eq x a s]
      exact applyAts_mark retractType (scope_nodup x) inScope free there
    exact marked g here own
  · rw [filters]
    exact releaseAction_sets x s k
  · rw [left]
    split
    · rename_i inScope
      rcases quiet with outside | shut | busy | empty
      · exact absurd inScope outside
      · exact Engine.served_kept (.inr shut)
      · exact Engine.served_kept (.inl busy)
      · exact Engine.served_empty empty _
    · rfl
  · rw [left, if_pos inScope, opened, Engine.served_next pending idle]
    exact started_iff moves _

end Sys2Proof
end

section
/-! A new ceiling (R124): the sources acted in order of number, and the POSITION conditions their retracts clear (R101). -/
namespace Sys2Proof.Machine
open Sys2Proof.Safety

/-! ### The POSITION condition through a retract procedure -/

/-- R101: the stand has an active move that a retract procedure ends or drops. -/
def Engine.losesMove (e : Engine) : Bool := !(e.act.isIdle || e.act.isOf .retract)

theorem Engine.losesMove_iff (e : Engine) : e.losesMove = true ↔ e.act ≠ .idle ∧ e.act.isOf .retract = false := by
  simp [losesMove, Activity.isIdle_iff, ← Bool.not_eq_true]

/-- R101: the trip controller after a stand's retract procedure. -/
def sweptTrips (k : Stand) (loses : Bool) (s : State) : Trips := if loses then (setLive (.position k) false s).trips else s.trips

theorem sweptTrips_congr {s t : State} (same : t.trips = s.trips) (k : Stand) (loses : Bool) :
    sweptTrips k loses t = sweptTrips k loses s := by
  simp only [sweptTrips, setLive, setSource, same]

theorem abortActive_trips {k : Stand} {s : State} :
    (abortActive k s).trips = sweptTrips k (s.eng.get k).losesMove s := by
  unfold abortActive Engine.losesMove Activity.isOf sweptTrips
  cases active : (s.eng.get k).act.active? with
  | none =>
    have idle := (Activity.active?_eq_none_iff _).1 active
    simp [idle, Activity.isIdle]
  | some a =>
    have busy : (s.eng.get k).act.isIdle = false := by
      rw [← Bool.not_eq_true, Activity.isIdle_iff]
      intro idle
      simp [idle, Activity.active?] at active
    cases origin : a.move.origin with
    | setup | link =>
      simp only [origin]
      rw [finishMove_split, busy]
      simp [origin]
    | feedback =>
      simp only [origin]
      rw [dropActive, clearPosErr, busy]
      simp [origin, setLive, setSource, setEngine]
    | retract => simp [origin]

theorem retract_trips (k : Stand) (s : State) : (retract k s).trips = sweptTrips k (s.eng.get k).losesMove s := by
  have flushed (l : List Move) (u : State) : (flushPending k l u).trips = u.trips := by
    induction l generalizing u with
    | nil => rfl
    | cons m l ih =>
      refine (ih _).trans ?_
      rw [freeSlot_split]
      rfl
  rw [retract_eq, swept, startRetract_setEngine]
  exact (flushed _ _).trans abortActive_trips

/-! ### The POSITION conditions as an action is applied -/

/-- R101, R129: a retract-type action at the stand would end or drop its active move. -/
def State.clearable (s : State) (k : Stand) : Bool := !s.retracting k && (s.eng.get k).losesMove

theorem applyAt_trips (y : Source) (a : Action) (s : State) (k : Stand) :
    (applyAt y a s k).trips = sweptTrips k (a.isRetractType && s.clearable k) s := by
  have blocks (u : State) : (if s.blocked k then u else deriveAgc k u).trips = u.trips := by split <;> rfl
  have marked (u : State) : (markUnderStand k u).trips = u.trips ∧ (markUnderStand k u).eng = u.eng := by
    unfold markUnderStand
    split <;> exact ⟨rfl, rfl⟩
  rw [applyAt_eq, State.clearable]
  dsimp only
  by_cases retracting : s.retracting k = true
  · rw [if_pos retracting, retracting]
    simp [sweptTrips]
  · rw [if_neg retracting, Bool.eq_false_iff.2 retracting]
    have swept (b : Action) :
        (retract k (markUnderStand k (setActions k (s.ilk.sets.get k ++ [{ source := y, action := b }]) s))).trips =
          sweptTrips k (s.eng.get k).losesMove s := by
      obtain ⟨trips, eng⟩ := marked (setActions k (s.ilk.sets.get k ++ [{ source := y, action := b }]) s)
      rw [retract_trips, eng, sweptTrips_congr trips]
      rfl
    cases a with
    | alarm => rfl
    | hold =>
      refine (blocks _).trans ?_
      rw [holdActive_setEngine]
      rfl
    | retract => exact (blocks _).trans (swept _)
    | stop => exact (blocks _).trans (swept _)

theorem sweptTrips_live (k : Stand) (loses : Bool) (s : State) (x : Source) :
    ((sweptTrips k loses s).src.get x).live = ((s.trips.src.get x).live && !(loses && x == .position k)) := by
  cases loses with
  | false => simp [sweptTrips]
  | true =>
    have set : ((sweptTrips k true s).src.get x) =
        if x = .position k then { s.trips.src.get (.position k) with live := false } else s.trips.src.get x :=
      PerSource.get_set _ _ _ _
    rw [set]
    by_cases own : x = .position k
    · simp [own]
    · simp [own]

theorem Engine.heldNow_losesMove (e : Engine) : e.heldNow.losesMove = e.losesMove := by
  unfold heldNow
  split
  · rfl
  · split
    · rename_i a act
      simp [losesMove, act, Activity.isIdle, Activity.isOf, Activity.active?]
    · rename_i a act
      simp [losesMove, act, Activity.isIdle, Activity.isOf, Activity.active?]
    · rfl
    · rfl

/-- R97, R101: an action that opens no gap leaves what a retract procedure would find. -/
theorem Engine.under_losesMove {a : Action} (other : a.isRetractType = false) (retracting : Bool) (e : Engine) :
    (e.under a retracting).losesMove = e.losesMove := by
  unfold under
  split
  · rfl
  · cases a with
    | alarm => rfl
    | hold => exact e.heldNow_losesMove
    | retract | stop => exact absurd other nofun

theorem entered_retracting (es : List Entry) (y : Source) (a : Action) :
    ((es ++ [({ source := y, action := a } : Entry)]).any fun e => e.action.isRetractType) =
      ((es.any fun e => e.action.isRetractType) || a.isRetractType) := by
  simp

/-- R101, R129: once a stand retracts, no further action ends a move there. -/
theorem under_clearable (a : Action) (es : List Entry) (y : Source) (e : Engine) :
    (!((es ++ [({ source := y, action := a } : Entry)]).any fun e => e.action.isRetractType) &&
        (e.under a (es.any fun e => e.action.isRetractType)).losesMove) =
      ((!(es.any fun e => e.action.isRetractType) && e.losesMove) && !a.isRetractType) := by
  rw [entered_retracting]
  cases other : a.isRetractType with
  | true => simp
  | false => simp [Engine.under_losesMove other]

theorem applyAt_clearable (y : Source) (a : Action) (s : State) (k j : Stand) :
    (applyAt y a s j).clearable k = (s.clearable k && !(a.isRetractType && k == j)) := by
  have sets : (applyAt y a s j).ilk.sets = _ := congrArg Acts.sets (acts_applyAt y a s j)
  have eng := applyAt_eng y a s j
  unfold State.clearable State.retracting
  rw [sets, eng]
  by_cases here : k = j
  · subst here
    rw [PerStand.get_set_self, PerStand.get_set_self, State.retracting, under_clearable]
    simp
  · rw [PerStand.get_set_ne _ _ here, PerStand.get_set_ne _ _ here]
    simp [here]

theorem applyAction_clearable (y : Source) (a : Action) (s : State) (k : Stand) :
    (applyAction y a s).clearable k = (s.clearable k && !(a.isRetractType && decide (k ∈ scope y))) := by
  unfold State.clearable State.retracting
  rw [applyAction_sets, applyAction_eng]
  by_cases here : k ∈ scope y
  · rw [if_pos here, if_pos here, State.retracting, under_clearable]
    simp [here]
  · simp [here]

/-- R101, R129: the conditions left as an action is applied: those of the stands where it ends or drops a move become false. -/
theorem applyAts_live (y : Source) (a : Action) {l : List Stand} (once : l.Nodup) (s : State) (x : Source) :
    ((l.foldl (applyAt y a) s).trips.src.get x).live = true ↔ (s.trips.src.get x).live = true ∧
      ¬∃ k ∈ l, x = .position k ∧ a.isRetractType = true ∧ s.clearable k = true := by
  induction l generalizing s with
  | nil => simp
  | cons j l ih =>
    obtain ⟨fresh, once⟩ := List.nodup_cons.1 once
    have others (k : Stand) (here : k ∈ l) : (applyAt y a s j).clearable k = s.clearable k := by
      have other : k ≠ j := fun same => fresh (same ▸ here)
      rw [applyAt_clearable]
      simp [other]
    have one : ((applyAt y a s j).trips.src.get x).live = true ↔ (s.trips.src.get x).live = true ∧
        ¬(x = .position j ∧ a.isRetractType = true ∧ s.clearable j = true) := by
      rw [applyAt_trips, sweptTrips_live]
      rw [Bool.and_eq_true, Bool.not_eq_true', ← Bool.not_eq_true, Bool.and_eq_true, Bool.and_eq_true, beq_iff_eq,
        and_comm (b := x = .position j)]
    have rest : (∃ k ∈ l, x = .position k ∧ a.isRetractType = true ∧ (applyAt y a s j).clearable k = true) ↔
        ∃ k ∈ l, x = .position k ∧ a.isRetractType = true ∧ s.clearable k = true :=
      exists_congr fun k => and_congr_right fun here => by rw [others k here]
    rw [List.foldl_cons, ih once, one, rest, and_assoc, ← not_or]
    simp only [List.mem_cons, or_and_right, exists_or, exists_eq_left]

theorem applyAction_live (y : Source) (a : Action) (s : State) (x : Source) :
    ((applyAction y a s).trips.src.get x).live = true ↔ (s.trips.src.get x).live = true ∧
      ¬∃ k ∈ scope y, x = .position k ∧ a.isRetractType = true ∧ s.clearable k = true := by
  rw [applyAction_eq]
  exact applyAts_live y a (scope_nodup y) _ x

/-! ### Source by source -/

/-- R124: a source record that a ceiling makes act. -/
def SourceRec.due (ceiling : Nat) (r : SourceRec) : Bool := r.st == .pending && decide (r.priority < ceiling) && !r.acted

theorem SourceRec.due_core (ceiling : Nat) (r : SourceRec) : r.core.due ceiling = r.due ceiling := rfl

/-- R124: a source acts where it is due. -/
def State.due (s : State) (y : Source) : Bool := (s.trips.src.get y).due s.trips.ceiling

theorem actIfEligible_eq (s : State) (y : Source) : actIfEligible s y = if s.due y then act y s else s := rfl

section
variable (s : State) (y : Source)

theorem act_source (x : Source) :
    (act y s).acts.src.get x = if x = y then { s.acts.src.get y with acted := true } else s.acts.src.get x := by
  rw [acts_act]
  exact PerSource.get_set _ _ _ _

theorem act_sets (k : Stand) :
    (act y s).ilk.sets.get k =
      if k ∈ scope y then s.ilk.sets.get k ++ [{ source := y, action := (s.trips.src.get y).action }] else s.ilk.sets.get k :=
  applyAction_sets y _ _ k

theorem act_clearable (k : Stand) :
    (act y s).clearable k = (s.clearable k && !((s.trips.src.get y).action.isRetractType && decide (k ∈ scope y))) :=
  applyAction_clearable y _ _ k

theorem act_live (x : Source) :
    ((act y s).trips.src.get x).live = true ↔ (s.trips.src.get x).live = true ∧
      ¬∃ k ∈ scope y, x = .position k ∧ (s.trips.src.get y).action.isRetractType = true ∧ s.clearable k = true := by
  have live : ((setSource y { s.trips.src.get y with acted := true } s).trips.src.get x).live = (s.trips.src.get x).live := by
    rw [setSource_trips, PerSource.get_set]
    split
    · subst x
      rfl
    · rfl
  exact (applyAction_live y _ _ x).trans (by rw [live]; rfl)

theorem actIfEligible_source (x : Source) :
    (actIfEligible s y).acts.src.get x =
      { s.acts.src.get x with acted := (s.acts.src.get x).acted || (decide (x = y) && s.due y) } := by
  rw [actIfEligible_eq]
  by_cases due : s.due y = true
  · rw [if_pos due, act_source, due]
    by_cases own : x = y <;> simp [own]
  · rw [if_neg due, Bool.eq_false_iff.2 due]
    simp

theorem actIfEligible_ceiling : (actIfEligible s y).trips.ceiling = s.trips.ceiling :=
  ceiling_of_calm (calm_actIfEligible s y)

theorem actIfEligible_stack : (actIfEligible s y).trips.stack = s.trips.stack := by
  rw [actIfEligible_eq]
  split
  · exact congrArg Acts.stack (acts_act y s)
  · rfl

theorem actIfEligible_action (x : Source) : ((actIfEligible s y).trips.src.get x).action = (s.trips.src.get x).action := by
  have source := congrArg SourceRec.action (actIfEligible_source s y x)
  rw [acts_src, acts_src] at source
  exact source

theorem actIfEligible_due {x : Source} (other : x ≠ y) : (actIfEligible s y).due x = s.due x := by
  have source := actIfEligible_source s y x
  simp only [acts_src, other, decide_false, Bool.false_and, Bool.or_false] at source
  rw [State.due, State.due, ← SourceRec.due_core, source, actIfEligible_ceiling]
  rfl

/-- R124: acting the source opens the gap at a stand. -/
def State.opens (s : State) (y : Source) (k : Stand) : Bool :=
  s.due y && (s.trips.src.get y).action.isRetractType && decide (k ∈ scope y)

theorem actIfEligible_opens {x : Source} (other : x ≠ y) (k : Stand) : (actIfEligible s y).opens x k = s.opens x k := by
  rw [State.opens, State.opens, actIfEligible_due s y other, actIfEligible_action]

theorem actIfEligible_clearable (k : Stand) : (actIfEligible s y).clearable k = (s.clearable k && !s.opens y k) := by
  rw [actIfEligible_eq, State.opens]
  cases due : s.due y with
  | true => simp [act_clearable]
  | false => simp

theorem actIfEligible_live (x : Source) :
    ((actIfEligible s y).trips.src.get x).live = true ↔ (s.trips.src.get x).live = true ∧
      ¬∃ k, x = .position k ∧ s.opens y k = true ∧ s.clearable k = true := by
  rw [actIfEligible_eq]
  unfold State.opens
  cases due : s.due y with
  | true =>
    simp only [if_true, act_live, Bool.true_and, Bool.and_eq_true, decide_eq_true_eq]
    refine and_congr_right fun _ => not_congr (exists_congr fun k => ?_)
    constructor
    · rintro ⟨inScope, own, kind, clearable⟩
      exact ⟨own, ⟨kind, inScope⟩, clearable⟩
    · rintro ⟨own, ⟨kind, inScope⟩, clearable⟩
      exact ⟨inScope, own, kind, clearable⟩
  | false => simp

theorem actIfEligible_entry (k : Stand) (e : Entry) :
    e ∈ (actIfEligible s y).ilk.sets.get k ↔ e ∈ s.ilk.sets.get k ∨
      (s.due y = true ∧ k ∈ scope y ∧ e = { source := y, action := (s.trips.src.get y).action }) := by
  rw [actIfEligible_eq]
  cases due : s.due y with
  | true =>
    simp only [if_true, act_sets]
    by_cases here : k ∈ scope y <;> simp [here]
  | false => simp
end

/-! ### All sources -/

theorem SourceRec.eq_of_core {r q : SourceRec} {acted : Bool} (core : r.core = { q.core with acted := acted })
    (mode : r.mode = q.mode) : r = { q with acted := acted, live := r.live } := by
  obtain ⟨m, p, a, hidden, st, ac, rep, live⟩ := r
  simp only [SourceRec.core, SourceRec.mk.injEq] at core mode ⊢
  obtain ⟨-, priority, action, masked, st, acted, rep, -⟩ := core
  exact ⟨mode, priority, action, masked, st, acted, rep, trivial⟩

section
variable {l : List Source} (s : State)

theorem actAll_ceiling : (l.foldl actIfEligible s).trips.ceiling = s.trips.ceiling := by
  induction l generalizing s with
  | nil => rfl
  | cons y l ih => exact (ih _).trans (actIfEligible_ceiling s y)

theorem actAll_stack : (l.foldl actIfEligible s).trips.stack = s.trips.stack := by
  induction l generalizing s with
  | nil => rfl
  | cons y l ih => exact (ih _).trans (actIfEligible_stack s y)

theorem actAll_source (once : l.Nodup) (x : Source) :
    (l.foldl actIfEligible s).acts.src.get x =
      { s.acts.src.get x with acted := (s.acts.src.get x).acted || (decide (x ∈ l) && s.due x) } := by
  induction l generalizing s with
  | nil => simp
  | cons y l ih =>
    obtain ⟨fresh, once⟩ := List.nodup_cons.1 once
    rw [List.foldl_cons, ih _ once, actIfEligible_source]
    by_cases own : x = y
    · subst own
      simp [fresh]
    · simp [own, actIfEligible_due s y own]

theorem actAll_entry (once : l.Nodup) (k : Stand) (x : Source) (a : Action) :
    ({ source := x, action := a } : Entry) ∈ (l.foldl actIfEligible s).ilk.sets.get k ↔
      ({ source := x, action := a } : Entry) ∈ s.ilk.sets.get k ∨
        (x ∈ l ∧ s.due x = true ∧ (s.trips.src.get x).action = a ∧ k ∈ scope x) := by
  induction l generalizing s with
  | nil => simp
  | cons y l ih =>
    obtain ⟨fresh, once⟩ := List.nodup_cons.1 once
    rw [List.foldl_cons, ih _ once, actIfEligible_entry, actIfEligible_action]
    by_cases own : x = y
    · subst own
      simp only [fresh, false_and, or_false, List.mem_cons, true_and, Entry.mk.injEq]
      refine or_congr_right ⟨?_, ?_⟩
      · rintro ⟨due, inScope, rfl⟩
        exact ⟨due, rfl, inScope⟩
      · rintro ⟨due, rfl, inScope⟩
        exact ⟨due, inScope, rfl⟩
    · simp [own, actIfEligible_due s y own]

/-- R101, R124: the conditions left under a new ceiling. -/
theorem actAll_live (once : l.Nodup) (x : Source) :
    ((l.foldl actIfEligible s).trips.src.get x).live = true ↔ (s.trips.src.get x).live = true ∧
      ¬∃ k, x = .position k ∧ s.clearable k = true ∧ ∃ y ∈ l, s.opens y k = true := by
  induction l generalizing s with
  | nil => simp
  | cons y l ih =>
    obtain ⟨fresh, once⟩ := List.nodup_cons.1 once
    have later (k : Stand) : (∃ z ∈ l, (actIfEligible s y).opens z k = true) ↔ ∃ z ∈ l, s.opens z k = true :=
      exists_congr fun z => and_congr_right fun here => by
        rw [actIfEligible_opens s y (by rintro rfl; exact fresh here)]
    rw [List.foldl_cons, ih _ once, actIfEligible_live]
    simp only [later, actIfEligible_clearable, and_assoc, Bool.and_eq_true, Bool.not_eq_true', List.mem_cons, exists_eq_or_imp]
    refine and_congr_right fun _ => ?_
    rw [← not_or, ← exists_or]
    refine not_congr (exists_congr fun k => ?_)
    cases s.opens y k <;> cases s.clearable k <;> simp

theorem actAll_record (once : l.Nodup) (x : Source) :
    (l.foldl actIfEligible s).trips.src.get x = { s.trips.src.get x with
      acted := (s.trips.src.get x).acted || (decide (x ∈ l) && s.due x)
      live := ((l.foldl actIfEligible s).trips.src.get x).live } := by
  have core := actAll_source s once x
  rw [acts_src, acts_src] at core
  have plain := source_of_calm (calm_foldl calm_actIfEligible l s) x
  generalize (l.foldl actIfEligible s).trips.src.get x = r at core plain ⊢
  have mode : r.plain.mode = (s.trips.src.get x).plain.mode := congrArg SourceRec.mode plain
  exact SourceRec.eq_of_core core mode
end

/-- R124: operations that act what is due under the ceiling act as the model does. -/
theorem foldl_acting {op : State → Source → State} {c : Nat} (same : ∀ u x, u.trips.ceiling = c → op u x = actIfEligible u x)
    (l : List Source) {u : State} (ceiling : u.trips.ceiling = c) : l.foldl op u = l.foldl actIfEligible u := by
  induction l generalizing u with
  | nil => rfl
  | cons x l ih =>
    rw [List.foldl_cons, same u x ceiling, ih (by rw [actIfEligible_ceiling, ceiling])]
    rfl

theorem answerSetCeiling_eq (ceiling : Byte) (s : State) :
    answerSetCeiling ceiling s =
      let c := clampNat 2 8 ceiling.toNat
      let u : State := { s with trips := { s.trips with ceiling := c } }
      { state := evalAttn (Source.all.foldl actIfEligible u)
        status := if c = ceiling.toNat then .ok else .adjusted
        content := be1 c ++ sourceSet (Source.all.filter u.due) } := by
  rw [answerSetCeiling, okOr_bne]
  rfl

/-! ### RAISE_TRIP -/

theorem isRetractType_iff (a : Action) : a.isRetractType = true ↔ a = .retract ∨ a = .stop := by
  cases a <;> simp [Action.isRetractType]

theorem latch_st (x : Source) (s : State) : ((latch x s).trips.src.get x).st = .pending := by
  have acts := congrArg (fun a => (a.src.get x).st) (acts_latch x s)
  have latched : ((latch x s).acts.src.get x).st = .pending := by
    refine acts.trans ?_
    split
    · rw [act_source, if_pos rfl, acts_setSource, PerSource.get_set_self]
      rfl
    · rw [acts_setSource, PerSource.get_set_self]
      rfl
  rwa [acts_src] at latched

theorem edge_st (x : Source) (s : State) :
    ((edge x s).trips.src.get x).st =
      if (s.trips.src.get x).masked = false ∧ (s.trips.src.get x).st = .quiet then .pending else (s.trips.src.get x).st := by
  by_cases deaf : (s.trips.src.get x).masked = true ∨ (s.trips.src.get x).st = .pending
  · rw [edge_deaf deaf, if_neg]
    rintro ⟨unmasked, quiet⟩
    rcases deaf with masked | pending
    · exact absurd (masked.symm.trans unmasked) nofun
    · exact absurd (pending.symm.trans quiet) nofun
  · rw [not_or, Bool.not_eq_true] at deaf
    obtain ⟨unmasked, waiting⟩ := deaf
    cases st : (s.trips.src.get x).st with
    | quiet =>
      rw [edge_quiet unmasked st, latch_st]
      simp [unmasked]
    | pending => exact absurd st waiting
    | inService =>
      rw [edge_inService unmasked st]
      split <;> simp [PerSource.get_set_self, st]

end Sys2Proof.Machine
namespace Sys2Proof
open Machine Safety

/-- Settles O50: the sources a new ceiling acts, the conditions and sets it leaves, and RAISE_TRIP. -/
theorem ceilingActsEligibleSources : Obligations.CeilingActsEligibleSources := by
  unfold Obligations.CeilingActsEligibleSources
  have once := Source.all_nodup
  have every := Source.mem_all
  have numbered : Source.all.map Source.num = List.range 24 := by decide
  have answers (ceiling : Byte) (s : State) := answerSetCeiling_eq ceiling s
  generalize Source.all = all at once every numbered answers ⊢
  intro tag ceiling s may h c acts acting t clears
  have trips : h.trips = s.trips := heard_trips s
  obtain ⟨base, start⟩ : ∃ u : State, u = { h with trips := { h.trips with ceiling := c } } := ⟨_, rfl⟩
  have ceilinged : base.trips = { s.trips with ceiling := c } := by rw [start, ← trips]
  have ilk : base.ilk = s.ilk := start ▸ heard_ilk s
  have eng : base.eng = s.eng := start ▸ heard_eng s
  have due (x : Source) : base.due x = acts x := by
    simp only [State.due, SourceRec.due, acts, ceilinged]
  have acted (u : State) (x : Source) (low : u.trips.ceiling = c) : acting u x = actIfEligible u x := by
    rw [actIfEligible_eq, State.due, low]
    simp only [acting, SourceRec.due, Bool.and_eq_true, beq_iff_eq, decide_eq_true_eq, Bool.not_eq_true', and_assoc]
    rfl
  have run : t = evalAttn (all.foldl actIfEligible base) := by
    rw [start]
    exact congrArg evalAttn (foldl_acting acted _ rfl)
  refine ⟨⟨?_, numbered, ?_, ?_, ?_, fun x => ?_, fun x => ?_, fun k x a => ?_, ?_⟩, ?_⟩
  · refine request_replied may ?_
    have filtered : all.filter base.due = all.filter acts := List.filter_congr fun x _ => due x
    rw [answers, run, ← filtered, start]
  · rw [run]
    exact (actAll_ceiling _).trans (congrArg Trips.ceiling ceilinged)
  · rw [run]
    refine (actAll_stack base).trans ?_
    rw [ceilinged]
  · rw [run]
    refine (inputs_of_calm (calm_foldl calm_actIfEligible all base)).trans ?_
    rw [ceilinged]
  · rw [run]
    refine (actAll_record base once x).trans ?_
    rw [due, decide_eq_true (every x), Bool.true_and, ceilinged]
    rfl
  · rw [run]
    refine (actAll_live base once x).trans (and_congr (by rw [ceilinged]) (not_congr (exists_congr fun k => ?_)))
    have clearable : base.clearable k = true ↔
        s.retracting k = false ∧ (s.eng.get k).act ≠ .idle ∧ (s.eng.get k).act.isOf .retract = false := by
      rw [State.clearable, retracting_congr (t := s) (by rw [ilk]), eng, Bool.and_eq_true, Engine.losesMove_iff, Bool.not_eq_true']
    have opens (y : Source) : base.opens y k = true ↔ acts y = true ∧
        ((s.trips.src.get y).action = .retract ∨ (s.trips.src.get y).action = .stop) ∧ k ∈ scope y := by
      rw [State.opens, due, ceilinged, Bool.and_eq_true, Bool.and_eq_true, decide_eq_true_eq, isRetractType_iff, and_assoc]
    simp only [clearable, opens, every, true_and]
    constructor
    · rintro ⟨at_, found, y, acts, kind, inScope⟩
      exact ⟨y, at_, acts, kind, inScope, found⟩
    · rintro ⟨y, at_, acts, kind, inScope, found⟩
      exact ⟨at_, found, y, acts, kind, inScope⟩
  · rw [run]
    refine (actAll_entry base once k x a).trans ?_
    rw [due, ceilinged, ilk]
    simp only [every, true_and]
  · rfl
  · refine ⟨request_replied may rfl, ?_⟩
    rw [edge_st]
    simp only [trips]

end Sys2Proof
end
